-- ==== Sys2Proof/Word.lean ====
section
/-! DEFINITION. The words of the block (00_scope.md R14, R15) and their plainest arithmetic. -/

namespace Sys2Proof

/-- A 128-bit word, bit 0 the least significant (R14). K, V, DT, every cipher input and output and
every beat is one (R7, R8, R9). -/
abbrev Bits128 := BitVec 128

/-- One byte of a stream (R15). -/
abbrev Byte := BitVec 8

/-- The block cipher's type: key, then input block, to output block (R11). -/
abbrev Cipher := Bits128 → Bits128 → Bits128

/-- The least `q` with `16 * q ≥ n` (R16). -/
def ceilDiv16 (n : Nat) : Nat := (n + 15) / 16

end Sys2Proof
end

