-- ==== Sys2Proof/Config.lean ====
section
/-! DEFINITION. What the spec leaves as a parameter of the block (00_scope.md R10 to R13). -/

namespace Sys2Proof

/-- CIPHER (R11): a total function of key and input block of which nothing else is assumed. It has no
body, so whatever is proved of the machine holds for every cipher (notes/assumptions/1.md). -/
opaque Config.encrypt : Cipher

/-- TOY (41_block_generator.md R98): the spec's own hand-checkable cipher. It is no part of the block;
the operations that take a cipher as an argument are tested with it. -/
def Config.toy : Cipher := fun k x => x + k + 1

end Sys2Proof
end

