-- ==== Sys2Proof/Syntax.lean ====
section
/-! DEFINITION. The command record of the command port and the commands it carries, one constructor
per row of spec/opcode_table.json. -/

namespace Sys2Proof

/-- One command as the command port carries it (30_encoding.md R55). `size` is the natural number the
size operand denotes; which widths SIZE_W can carry it is `Command.fits` (notes/assumptions/2.md). -/
structure Command where
  op   : BitVec 4
  key  : Bits128
  seed : Bits128
  dt   : Bits128
  size : Nat
  deriving DecidableEq, Repr

/-- The decoded commands, in the order of the opcode table, with the operands each one reads (R57).
The four reserved rows carry the opcode bits their row leaves open. -/
inductive Instr where
  /-- 0000: reserved (60_exceptions.md R122). -/
  | reserved0
  /-- 0001: INIT (40_initialisation.md R70). -/
  | init (key seed : Bits128)
  /-- 0010: LOAD_DT (40_initialisation.md R73). -/
  | loadDt (dt : Bits128)
  /-- 0011: NEXT_BLOCK (41_block_generator.md R97). -/
  | nextBlock
  /-- 0100: GENERATE (42_stream_generator.md R100). -/
  | generate (size : Nat)
  /-- 0101: reserved (R122). -/
  | reserved5
  /-- 011x: reserved, opcode bit 0 (R122). -/
  | reserved67 (bit : BitVec 1)
  /-- 1xxx: reserved, opcode bits 2 to 0 (R122). -/
  | reserved8F (low : BitVec 3)
  deriving DecidableEq, Repr

end Sys2Proof
end

