-- ==== Sys2Proof/WellFormed.lean ====
section
/-! DEFINITION. Which commands a command port whose size operand is SIZE_W bits wide can carry
(00_scope.md R10). -/

namespace Sys2Proof

/-- The size operand fits the SIZE_W bits of `cmd_size` (R10, R55, R113). -/
def Command.fits (sizeW : Nat) (c : Command) : Bool := decide (c.size < 2 ^ sizeW)

/-- A command is well formed for a port of width SIZE_W when its size is below `2 ^ SIZE_W` (R65,
R113). Every key, seed and counter value is legal (R67, R68), and no other command has a size. -/
def Instr.wellFormed (sizeW : Nat) : Instr → Bool
  | .reserved0 => true
  | .init _ _ => true
  | .loadDt _ => true
  | .nextBlock => true
  | .generate size => decide (size < 2 ^ sizeW)
  | .reserved5 => true
  | .reserved67 _ => true
  | .reserved8F _ => true

end Sys2Proof
end

