-- ==== Sys2Proof/Decode.lean ====
section
/-! DEFINITION. The decoder of the command port (30_encoding.md R55 to R60, R67), the encoder, and the
one numeric picture of a command record that the host's checks use. -/

namespace Sys2Proof

/-- The decoder (R57): only `op` selects the command (R56), and every one of the sixteen opcodes
decodes (R67). Operands are taken bit for bit (R58). -/
def decode (c : Command) : Instr :=
  match c.op.toNat with
  | 0 => .reserved0
  | 1 => .init c.key c.seed
  | 2 => .loadDt c.dt
  | 3 => .nextBlock
  | 4 => .generate c.size
  | 5 => .reserved5
  | 6 => .reserved67 (c.op.extractLsb' 0 1)
  | 7 => .reserved67 (c.op.extractLsb' 0 1)
  | _ => .reserved8F (c.op.extractLsb' 0 3)

/-- The opcode of a command (R57 and spec/opcode_table.json's patterns). -/
def Instr.opcode : Instr → BitVec 4
  | .reserved0 => 0b0000#4
  | .init _ _ => 0b0001#4
  | .loadDt _ => 0b0010#4
  | .nextBlock => 0b0011#4
  | .generate _ => 0b0100#4
  | .reserved5 => 0b0101#4
  | .reserved67 bit => 0b0110#4 ||| bit.setWidth 4
  | .reserved8F low => 0b1000#4 ||| low.setWidth 4

/-- A command record with that opcode and every operand 0: an assembler's `.cmd` (R65). -/
def Command.bare (op : BitVec 4) : Command := { op := op, key := 0, seed := 0, dt := 0, size := 0 }

/-- The encoder: the opcode, the operands the command reads, and 0 in the fields it does not read
(R55, R65). -/
def encode (i : Instr) : Command :=
  match i with
  | .init key seed => { Command.bare i.opcode with key := key, seed := seed }
  | .loadDt dt => { Command.bare i.opcode with dt := dt }
  | .generate size => { Command.bare i.opcode with size := size }
  | .reserved0 => Command.bare i.opcode
  | .nextBlock => Command.bare i.opcode
  | .reserved5 => Command.bare i.opcode
  | .reserved67 _ => Command.bare i.opcode
  | .reserved8F _ => Command.bare i.opcode

/-- The command record read from a number that holds its fields side by side, `op` in bits 3 to 0,
then key, seed, dt and size. Only the place of `op` is the opcode table's; the spec lays out no such
number (notes/assumptions/3.md). -/
def Command.ofWord (w : Nat) : Command where
  op   := BitVec.ofNat 4 w
  key  := BitVec.ofNat 128 (w >>> 4)
  seed := BitVec.ofNat 128 (w >>> 4 >>> 128)
  dt   := BitVec.ofNat 128 (w >>> 4 >>> 128 >>> 128)
  size := w >>> 4 >>> 128 >>> 128 >>> 128

/-- The number `Command.ofWord` reads this record from. -/
def Command.toWord (c : Command) : Nat :=
  c.op.toNat + 2 ^ 4 * (c.key.toNat + 2 ^ 128 * (c.seed.toNat + 2 ^ 128 * (c.dt.toNat +
    2 ^ 128 * c.size)))

/-- The record a word of `nbits` bits stands for: every bit above them is 0. -/
def Command.ofTableWord (nbits w : Nat) : Command := Command.ofWord (w % 2 ^ nbits)

/-- The command the decoder reads from a word numbered as spec/opcode_table.json numbers it. It
always answers (R67). -/
def decodeTableWord (nbits w : Nat) : Option Instr := some (decode (Command.ofTableWord nbits w))

end Sys2Proof
end

