-- ==== Sys2Proof/Machine/Operands.lean ====
section
/-! DEFINITION. Byte lanes, the XOR and the truncator's choice of leading bytes (20_memory.md R41 to
R46, 41_block_generator.md R87). -/

namespace Sys2Proof.Machine

/-- Byte `i` of a word, bits `[127-8i : 120-8i]`: byte 0 is the most significant (R15, R41). -/
def byteOf (w : Bits128) (i : Nat) : Byte := w.extractLsb' (120 - 8 * i) 8

/-- The sixteen bytes of a word, byte 0 first (R15). -/
def bytes16 (w : Bits128) : List Byte := (List.range 16).map (byteOf w)

/-- The word whose byte lanes are the given bytes, byte 0 first (R41). -/
def wordOfBytes : List Byte → Bits128
  | [] => 0
  | b :: bs => (b.setWidth 128 <<< 120) ||| (wordOfBytes bs >>> 8)

/-- The bitwise exclusive-or of two words (R16, R87). -/
def xor128 (a b : Bits128) : Bits128 := a ^^^ b

/-- Ones in byte lanes `0 .. n-1`, zeros in the others. -/
def laneMask (n : Nat) : Bits128 := BitVec.allOnes 128 <<< (128 - 8 * n)

/-- `keep(R, n)`: the word with byte lanes `n .. 15` set to 0 (42_stream_generator.md R102, R106). -/
def keep (w : Bits128) (n : Nat) : Bits128 := w &&& laneMask n

end Sys2Proof.Machine
end

