-- ==== Sys2Proof/Machine/State.lean ====
section
/-! DEFINITION. The state of the block (10_state.md), the environment's wires as plain data, and the
reasons a step can stop. -/

namespace Sys2Proof.Machine

/-- PHASE (R25). -/
inductive Phase where
  | idle
  | stream
  deriving DecidableEq, Repr

/-- The responses the block produces (30_encoding.md R62, 60_exceptions.md R121). Code 11 is never
produced, so it is no response. -/
inductive Response where
  | ok
  | illegalOp
  | notLoaded
  deriving DecidableEq, Repr

/-- One beat: the fields OUTBUF holds while it is valid (R27, R61). -/
structure Beat where
  data   : Bits128
  nbytes : BitVec 5
  last   : Bool
  deriving DecidableEq, Repr

/-- One call of the cipher, as the trace CALLS records it (R33). -/
structure CipherCall where
  key   : Bits128
  input : Bits128
  deriving DecidableEq, Repr

/-- What the environment drives during one step (R55, R61, R62, R63, R140). A field at its default
value drives nothing. -/
structure Pins where
  /-- `rst` (R140). -/
  rst : Bool := false
  /-- `cmd_valid` with the command record it offers (R55). -/
  cmd : Option Command := none
  /-- `out_ready` (R61). -/
  outReady : Bool := false
  /-- `rsp_ready` (R62). -/
  rspReady : Bool := false
  /-- The cipher has answered the calls of the running block step; ignored when none runs (R90, R151). -/
  cphAnswer : Bool := false
  deriving DecidableEq, Repr

/-- The state of one instance of the block. The first nine fields are the spec's (R20 to R28, R33);
the last four are the model's picture of the environment (notes/assumptions/4.md, 5.md, 6.md). -/
structure State where
  /-- K (R21); no value from reset until the first INIT (R39). -/
  k : Option Bits128
  /-- V (R22); no value from reset until the first INIT (R39). -/
  v : Option Bits128
  /-- DT (R23). -/
  dt : Bits128
  /-- LOADED (R24). -/
  loaded : Bool
  /-- PHASE (R25). -/
  phase : Phase
  /-- REM (R26): the bytes of the current command not yet placed in OUTBUF. -/
  rem : Nat
  /-- OUTBUF (R27): a beat while valid, nothing while not. -/
  outbuf : Option Beat
  /-- RESP (R28): a response while valid, nothing while not. -/
  resp : Option Response
  /-- CALLS (R33): every cipher call made, oldest first. -/
  calls : List CipherCall
  /-- The beats the host has accepted, oldest first (R104, R154). -/
  beats : List Beat
  /-- The responses the host has accepted, oldest first (R147, R154). -/
  responses : List Response
  /-- The command offered in the last step and not accepted in it, which the host must not change while
  it goes on offering (R145). -/
  pending : Option Command
  /-- What the environment drives in the coming steps, the next step's pins first. -/
  env : List Pins
  deriving DecidableEq, Repr

/-- The state after reset (R35, R141), at the start of a run: nothing called, delivered or offered. -/
def State.reset : State where
  k := none
  v := none
  dt := 0
  loaded := false
  phase := .idle
  rem := 0
  outbuf := none
  resp := none
  calls := []
  beats := []
  responses := []
  pending := none
  env := []

/-- Why the model stops with a fault. -/
inductive Fault where
  /-- Raised by a block step that reads K while it holds no value (R39: "must fault, not supply a
  value"; I1's treatment is `fault`). Safe: no reachable state does, since NEXT_BLOCK and GENERATE are
  answered NOT_LOADED, a next state, until an INIT has written K (R124). -/
  | absentKey
  /-- Raised by a block step that reads V while it holds no value (R39, I1). Safe: no reachable state
  does, for the same reason. -/
  | absentSeed
  deriving DecidableEq, Repr

/-- Why the model refuses to go on. -/
inductive Refusal where
  /-- Raised by an arm of `exec` that has no meaning yet; no arm is one. Safe. -/
  | notModelled (mnemonic : String)
  /-- Raised by a step in which the host offers another command, or other operands that the command
  reads, than the one it offered in the last step and the block has not accepted (R145; I3 says
  `refuse`). Safe: the spec gives no behaviour for it. -/
  | commandNotHeld
  deriving DecidableEq, Repr

/-- The three outcomes of a step of this machine. -/
abbrev Outcome := Host.Outcome State Fault Refusal

end Sys2Proof.Machine
end

