-- ==== Sys2Proof/Machine/Flags.lean ====
section
/-! DEFINITION. What the block's outputs show: STATUS, `dt_o` and the ports (10_state.md R29 to R31,
30_encoding.md R61 to R64), and the enabling condition of the block step. -/

namespace Sys2Proof.Machine

/-- STATUS.BUSY (R29): a stream is in progress or a response is pending. -/
def State.busy (s : State) : Bool := decide (s.phase = .stream) || s.resp.isSome

/-- STATUS (R29): bit 0 BUSY, bit 1 LOADED, bits 7 to 2 hardwired 0. -/
def State.status (s : State) : BitVec 8 := 0b000000#6 ++ BitVec.ofBool s.loaded ++ BitVec.ofBool s.busy

/-- `dt_o` (R30): the committed DT. -/
def State.dtO (s : State) : Bits128 := s.dt

/-- `cmd_ready` (R55, R146). -/
def State.cmdReady (s : State) : Bool := !s.busy

/-- `out_valid` (R61). -/
def State.outValid (s : State) : Bool := s.outbuf.isSome

/-- `rsp_valid` (R62). -/
def State.rspValid (s : State) : Bool := s.resp.isSome

/-- `rsp_code` of a response (R62, R121). -/
def Response.code : Response → BitVec 2
  | .ok => 0b00#2
  | .illegalOp => 0b01#2
  | .notLoaded => 0b10#2

/-- The block step is enabled (R49, R102); its cipher requests are then the block's outstanding ones
(R90). -/
def State.blockEnabled (s : State) : Bool :=
  decide (s.phase = .stream) && s.outbuf.isNone && decide (0 < s.rem)

/-- The stream bytes a beat carries: its first `nbytes` lanes, lane 0 first (R45, R104). -/
def Beat.bytes (b : Beat) : List Byte := (bytes16 b.data).take b.nbytes.toNat

/-- The stream bytes delivered to the host so far, in order (R44, R104, R115). -/
def State.streamBytes (s : State) : List Byte := s.beats.flatMap Beat.bytes

/-- What the host can see of the block (R29 to R31, R61, R62, R64): no K, no V, no REM, no PHASE but
through BUSY. A port's payload is seen only while its valid signal is 1 (I6, I7). -/
structure HostView where
  status    : BitVec 8
  dtO       : Bits128
  cmdReady  : Bool
  out       : Option Beat
  rsp       : Option (BitVec 2)
  beats     : List Beat
  responses : List Response
  deriving DecidableEq, Repr

/-- The host's view of a state. -/
def State.hostView (s : State) : HostView where
  status    := s.status
  dtO       := s.dtO
  cmdReady  := s.cmdReady
  out       := s.outbuf
  rsp       := s.resp.map Response.code
  beats     := s.beats
  responses := s.responses

end Sys2Proof.Machine
end

