-- ==== Sys2Proof/Machine/Ops.lean ====
section
/-! DEFINITION. The named operations over the state that commands and controller steps share
(00_scope.md R17): responding, rejecting, emitting a beat, recording cipher calls, the environment's
pins, the host's acceptances and reset. The block has no memory (20_memory.md R40). -/

namespace Sys2Proof.Machine

/-- `Respond(code)`: places one response in RESP (R17, R28). -/
def State.respond (s : State) (r : Response) : State := { s with resp := some r }

/-- `raise Reject(code)`: what this block has in place of an exception entry (60_exceptions.md R123,
R127). It responds and does nothing else. -/
def State.reject (s : State) (r : Response) : State := s.respond r

/-- `PHASE <- STREAM; REM <- size` (R97, R100). -/
def State.startStream (s : State) (size : Nat) : State := { s with phase := .stream, rem := size }

/-- `EmitBeat(data, nbytes, last)` (42_stream_generator.md R103). -/
def State.emitBeat (s : State) (b : Beat) : State := { s with outbuf := some b }

/-- Appends the calls just made to the trace CALLS, in call order (R17, R33). -/
def State.recordCalls (s : State) (cs : List CipherCall) : State := { s with calls := s.calls ++ cs }

/-- ACCEPT_RESPONSE (70_reset_and_hazards.md R147): delivers the code and empties RESP. -/
def State.acceptResponse (s : State) (r : Response) : State :=
  { s with resp := none, responses := s.responses ++ [r] }

/-- RESET (R141, R35): every piece of the block's state takes its reset value. What was called and
delivered before stays so (R33, I20), and an offer made before is over (notes/assumptions/6.md). -/
def State.applyReset (s : State) : State :=
  { State.reset with calls := s.calls, beats := s.beats, responses := s.responses, env := s.env }

/-- What the environment drives in the next step; past the end of `env` it drives nothing. -/
def State.pins (s : State) : Pins :=
  match s.env with
  | [] => {}
  | p :: _ => p

/-- The state once the next step's pins are used up. -/
def State.advance (s : State) : State := { s with env := s.env.tail }

/-- Remembers which command, if any, is offered and not accepted in this step. -/
def State.setPending (s : State) (c : Option Command) : State := { s with pending := c }

/-- The host's duty of R145: while it offers the command it offered in the last step, neither the opcode
nor an operand that the command reads has changed (which is what the decoder sees of it, R56). A host
that offers nothing breaks no duty: the command is not accepted (R55), and its offer is over
(notes/assumptions/6.md). -/
def State.holds (s : State) (offered : Option Command) : Bool :=
  match s.pending, offered with
  | none, _ => true
  | some _, none => true
  | some c, some c' => decide (decode c = decode c')

/-- The block made ready to accept a command (BUSY = 0) if it is not: the controller is idle and its
buffers are empty (R146). Used by `withFetchWord` only (notes/assumptions/3.md). -/
def State.madeReady (s : State) : State :=
  if s.busy then { s with phase := .idle, rem := 0, outbuf := none, resp := none } else s

/-- The environment with command `c` newly offered in the next step and reset not asserted in it. -/
def State.offerNext (s : State) (c : Command) : State :=
  { s with pending := none, env := { s.pins with rst := false, cmd := some c } :: s.env.tail }

end Sys2Proof.Machine
end

