-- ==== Sys2Proof/Machine/Initialisation.lean ====
section
/-! DEFINITION. INIT and LOAD_DT (40_initialisation.md). -/

namespace Sys2Proof.Machine

/-- INIT (R70): constructs a generator. Nothing about the operands is checked (R72), and the cipher is
not called. -/
def execInit (key seed : Bits128) (s : State) : Outcome :=
  .next ({ s with k := some key, v := some seed, dt := 0, loaded := true }.respond .ok)

/-- LOAD_DT (R73): sets the counter, whether or not a generator is loaded (R74). -/
def execLoadDt (dt : Bits128) (s : State) : Outcome :=
  .next ({ s with dt := dt }.respond .ok)

end Sys2Proof.Machine
end

