-- ==== Sys2Proof/Machine/Reserved.lean ====
section
/-! DEFINITION. The reserved opcodes (60_exceptions.md R122): accepted and rejected with ILLEGAL_OP,
whatever LOADED is (R125). -/

namespace Sys2Proof.Machine

/-- RESERVED(op) (R122). -/
def rejectIllegalOp (s : State) : Outcome := .next (s.reject .illegalOp)

/-- Opcode 0x0. -/
def execReserved0 (s : State) : Outcome := rejectIllegalOp s

/-- Opcode 0x5. -/
def execReserved5 (s : State) : Outcome := rejectIllegalOp s

/-- Opcodes 0x6 and 0x7: the open bit changes nothing, the opcode is not recorded (R121). -/
def execReserved67 (_bit : BitVec 1) (s : State) : Outcome := rejectIllegalOp s

/-- Opcodes 0x8 to 0xF: the open bits change nothing, the opcode is not recorded (R121). -/
def execReserved8F (_low : BitVec 3) (s : State) : Outcome := rejectIllegalOp s

end Sys2Proof.Machine
end

