-- ==== Sys2Proof/Machine/BlockGenerator.lean ====
section
/-! DEFINITION. The block function NB, its iteration and cipher calls, and NEXT_BLOCK
(41_block_generator.md). -/

namespace Sys2Proof.Machine

/-- What one evaluation of NB gives: the output block and the values that replace V and DT (R80). -/
structure Block where
  out  : Bits128
  seed : Bits128
  dt   : Bits128
  deriving DecidableEq, Repr

/-- Step 2 of NB: `I = Encrypt(K, DT)`, from the counter before its increment (R81, R82). -/
def nbI (E : Cipher) (k dt : Bits128) : Bits128 := E k dt

/-- Step 4 of NB: `R = Encrypt(K, I xor V)` (R84). -/
def nbR (E : Cipher) (k v dt : Bits128) : Bits128 := E k (xor128 (nbI E k dt) v)

/-- Step 5 of NB: `V' = Encrypt(K, R xor I)` (R85). -/
def nbV (E : Cipher) (k v dt : Bits128) : Bits128 := E k (xor128 (nbR E k v dt) (nbI E k dt))

/-- Step 3 of NB: `DT' = DT + 1 mod 2^128`, wrapping and never failing (R83, R91; 90_conflicts.md C1,
C2). -/
def nbDt (dt : Bits128) : Bits128 := dt + 1

/-- NB, the block function (R80). -/
def nb (E : Cipher) (k v dt : Bits128) : Block :=
  { out := nbR E k v dt, seed := nbV E k v dt, dt := nbDt dt }

/-- The three cipher calls of one evaluation of NB, in order, all with key K (R88, R90). -/
def nbCalls (E : Cipher) (k v dt : Bits128) : List CipherCall :=
  [⟨k, dt⟩, ⟨k, xor128 (nbI E k dt) v⟩, ⟨k, xor128 (nbR E k v dt) (nbI E k dt)⟩]

/-- `N` blocks in a row, each from the seed and counter the previous one left (R92). -/
structure Blocks where
  outs : List Bits128
  seed : Bits128
  dt   : Bits128
  deriving DecidableEq, Repr

/-- The blocks `R_1 .. R_N` and the final `V_N`, `DT_N` (R92). -/
def nbIter (E : Cipher) (k : Bits128) : Bits128 → Bits128 → Nat → Blocks
  | v, dt, 0 => ⟨[], v, dt⟩
  | v, dt, n + 1 =>
    let rest := nbIter E k (nb E k v dt).seed (nb E k v dt).dt n
    ⟨(nb E k v dt).out :: rest.outs, rest.seed, rest.dt⟩

/-- NEXT_BLOCK at acceptance (R97): one whole block of sixteen bytes is requested. -/
def execNextBlock (s : State) : Outcome :=
  if s.loaded then .next (s.startStream 16) else .next (s.reject .notLoaded)

end Sys2Proof.Machine
end

