-- ==== Sys2Proof/Machine/StreamGenerator.lean ====
section
/-! DEFINITION. GENERATE, its meaning as a function, and the controller steps that deliver a stream
beat by beat (42_stream_generator.md). -/

namespace Sys2Proof.Machine

/-- GENERATE at acceptance (R100): size 0 is answered at once (R112). -/
def execGenerate (size : Nat) (s : State) : Outcome :=
  if s.loaded then
    if size = 0 then .next (s.respond .ok) else .next (s.startStream size)
  else .next (s.reject .notLoaded)

/-- The number of bytes of the next block that are kept, `min(16, REM)` (R102). -/
def State.keptBytes (s : State) : Nat := min 16 s.rem

/-- The beat a block step emits for output block `r` (R102, R106); `last` looks at REM as it is before
the step. -/
def State.nextBeat (s : State) (r : Bits128) : Beat where
  data   := keep r s.keptBytes
  nbytes := BitVec.ofNat 5 s.keptBytes
  last   := decide (s.rem = s.keptBytes)

/-- The state after a block step that computed block `b`: V, DT, REM and OUTBUF together (R34, R102). -/
def State.commitBlock (s : State) (b : Block) : State :=
  { s with v := some b.seed, dt := b.dt, rem := s.rem - s.keptBytes }.emitBeat (s.nextBeat b.out)

/-- BLOCK_STEP (R102), with cipher `E`. A K or V that holds no value is never supplied (R39). -/
def blockStepWith (E : Cipher) (s : State) : Outcome :=
  match s.k, s.v with
  | none, _ => .fault .absentKey
  | some _, none => .fault .absentSeed
  | some k, some v => .next ((s.commitBlock (nb E k v s.dt)).recordCalls (nbCalls E k v s.dt))

/-- ACCEPT_BEAT (R104): delivers the beat in OUTBUF; the last beat ends the command with OK. -/
def State.acceptBeat (s : State) (b : Beat) : State :=
  let t := { s with outbuf := none, beats := s.beats ++ [b] }
  if b.last then { t with phase := .idle }.respond .ok else t

/-- What a command delivers and leaves: stream, V and DT (R101). -/
structure Generated where
  stream : List Byte
  seed   : Bits128
  dt     : Bits128
  deriving DecidableEq, Repr

/-- GEN (R101): the meaning of GENERATE as a function of the generator's state and the size. -/
def gen (E : Cipher) (k v dt : Bits128) (n : Nat) : Generated :=
  let bs := nbIter E k v dt (ceilDiv16 n)
  ⟨(bs.outs.flatMap bytes16).take n, bs.seed, bs.dt⟩

/-- The beats in which blocks `rs` deliver `n` bytes (R105): sixteen bytes each, but for the last. -/
def beatsOf : List Bits128 → Nat → List Beat
  | [], _ => []
  | r :: rs, n =>
    { data := keep r (min 16 n), nbytes := BitVec.ofNat 5 (min 16 n), last := decide (n ≤ 16) } ::
      beatsOf rs (n - 16)

/-- The cipher calls of `N` blocks in a row (R88, R92). -/
def iterCalls (E : Cipher) (k : Bits128) : Bits128 → Bits128 → Nat → List CipherCall
  | _, _, 0 => []
  | v, dt, n + 1 => nbCalls E k v dt ++ iterCalls E k (nb E k v dt).seed (nb E k v dt).dt n

end Sys2Proof.Machine
end

