-- ==== Sys2Proof/Machine/Dispatch.lean ====
section
/-! DEFINITION. One arm per command: what happens in the step that accepts it. -/

namespace Sys2Proof.Machine

def exec (i : Instr) (s : State) : Host.Outcome State Fault Refusal :=
  match i with
  | .reserved0 => Sys2Proof.Machine.execReserved0 s
  | .init key seed => Sys2Proof.Machine.execInit key seed s
  | .loadDt dt => Sys2Proof.Machine.execLoadDt dt s
  | .nextBlock => Sys2Proof.Machine.execNextBlock s
  | .generate size => Sys2Proof.Machine.execGenerate size s
  | .reserved5 => Sys2Proof.Machine.execReserved5 s
  | .reserved67 bit => Sys2Proof.Machine.execReserved67 bit s
  | .reserved8F low => Sys2Proof.Machine.execReserved8F low s

end Sys2Proof.Machine
end

