-- ==== Sys2Proof/Machine/Control.lean ====
section
/-! DEFINITION. Which transaction the next step takes (20_memory.md R49), for any cipher, and the runs
these steps make. -/

namespace Sys2Proof.Machine

/-- A step while BUSY = 1 and reset is not asserted, with the environment driving `p`: a waiting beat
leaves if the host takes it (R104); else an enabled block step completes if the cipher has answered
(R102, R90); else a pending response leaves if the host takes it (R147); else the block waits with its
state unchanged (R148, I5, I21). In reachable states at most one of the three is enabled (R36). -/
def busyStepWith (E : Cipher) (p : Pins) (s : State) : Outcome :=
  match s.outbuf with
  | some b => if p.outReady then .next (s.acceptBeat b) else .next s
  | none =>
    if s.blockEnabled then
      if p.cphAnswer then blockStepWith E s else .next s
    else
      match s.resp with
      | some r => if p.rspReady then .next (s.acceptResponse r) else .next s
      | none => .next s

/-- A step while BUSY = 0 and reset is not asserted: the offered command, if any, is accepted, decoded
and executed (R55, R57, R146). -/
def acceptStep (offered : Option Command) (s : State) : Outcome :=
  match offered with
  | some c => exec (decode c) s
  | none => .next s

/-- One step with cipher `E` (R49). Reset takes priority over everything (R142); a command offered
while BUSY = 1 waits (R146); a host that changes it while it waits is refused (R145, I3). -/
def stepWith (E : Cipher) (s : State) : Outcome :=
  if s.pins.rst then .next s.advance.applyReset
  else if s.holds s.pins.cmd then
    if s.busy then busyStepWith E s.pins (s.advance.setPending s.pins.cmd)
    else acceptStep s.pins.cmd (s.advance.setPending none)
  else .refused .commandNotHeld

/-- `n` steps with cipher `E`, stopping at the first fault or refusal. -/
def runWith (E : Cipher) : Nat → State → Outcome
  | 0, s => .next s
  | n + 1, s =>
    match stepWith E s with
    | .next t => runWith E n t
    | .fault f => .fault f
    | .refused r => .refused r

/-- `s` with the command a word stands for offered in the very next step (notes/assumptions/3.md). -/
def placeWord (s : State) (nbits w : Nat) : State :=
  s.madeReady.offerNext (Command.ofTableWord nbits w)

/-- Pins of an environment that takes everything and whose cipher answers at once (R152). -/
def Pins.eager : Pins := { outReady := true, rspReady := true, cphAnswer := true }

end Sys2Proof.Machine
end

