-- ==== Sys2Proof/Machine/Step.lean ====
section
/-! DEFINITION. The step of the block with its cipher, and where a command is placed for it. -/

namespace Sys2Proof.Machine

/-- One step of the block (20_memory.md R49) with the parameter CIPHER. -/
def step (s : State) : Host.Outcome State Fault Refusal := stepWith Config.encrypt s

/-- `s` with the command the word stands for on the command port, so that the very next step accepts
and runs it. -/
def State.withFetchWord (s : State) (nbits w : Nat) : State := placeWord s nbits w

end Sys2Proof.Machine
end

