-- ==== Sys2Proof/Machine/Instances.lean ====
section
/-! DEFINITION. Several instances of the block: the product of independent machines (20_memory.md R50,
60_exceptions.md R133). -/

namespace Sys2Proof.Machine

/-- A step of instance `n` of a system of instances: every other instance is as it was (R50). -/
def stepInstance (E : Cipher) (sys : List State) (n : Fin sys.length) :
    Host.Outcome (List State) Fault Refusal :=
  match stepWith E sys[n] with
  | .next t => .next (sys.set n t)
  | .fault f => .fault f
  | .refused r => .refused r

end Sys2Proof.Machine
end

