-- ==== Sys2Proof/Machine/Listing.lean ====
section
/-! DEFINITION. Command listings (30_encoding.md R65, R66, R69): the lines of a listing, the commands an
assembler makes of each, and the reading and writing of one line of text. -/

namespace Sys2Proof.Machine

/-- One line of a listing: a command, `.cmd`, or a pseudo-command (R65, R66). -/
inductive Line where
  | init (key seed : Bits128)
  | loadDt (dt : Bits128)
  | nextBlock
  | generate (size : Nat)
  | cmd (op : BitVec 4)
  | setup (key seed dt : Bits128)
  | blocks (m : Nat)
  deriving DecidableEq, Repr

/-- The commands a line stands for; fields a command does not read are 0 (R65, R66). -/
def Line.assemble : Line → List Command
  | .init key seed => [encode (.init key seed)]
  | .loadDt dt => [encode (.loadDt dt)]
  | .nextBlock => [encode .nextBlock]
  | .generate size => [encode (.generate size)]
  | .cmd op => [Command.bare op]
  | .setup key seed dt => [encode (.init key seed), encode (.loadDt dt)]
  | .blocks m => [encode (.generate (16 * m))]

/-- The line's sizes are below `2 ^ SIZE_W` (R65, R66). -/
def Line.wellFormed (sizeW : Nat) (l : Line) : Bool := l.assemble.all (Command.fits sizeW)

/-- The value of a hexadecimal digit, in lower case. -/
def hexDigit (c : Char) : Option Nat :=
  if '0' ≤ c ∧ c ≤ '9' then some (c.toNat - '0'.toNat)
  else if 'a' ≤ c ∧ c ≤ 'f' then some (c.toNat - 'a'.toNat + 10)
  else none

/-- A natural number in base `base`, most significant digit first, read after `acc`. -/
def readDigits (base : Nat) : Nat → List Char → Option Nat
  | acc, [] => some acc
  | acc, c :: cs =>
    match hexDigit c with
    | some d => if d < base then readDigits base (acc * base + d) cs else none
    | none => none

/-- A size or opcode: decimal, or hexadecimal after `0x` (R65). -/
def readNat : List Char → Option Nat
  | [] => none
  | '0' :: 'x' :: [] => none
  | '0' :: 'x' :: c :: cs => readDigits 16 0 (c :: cs)
  | c :: cs => readDigits 10 0 (c :: cs)

/-- A 128-bit operand: `0x` and exactly 32 hexadecimal digits (R65). -/
def readBits128 : List Char → Option Bits128
  | '0' :: 'x' :: cs => if cs.length = 32 then (readDigits 16 0 cs).map (BitVec.ofNat 128) else none
  | _ => none

/-- A named operand `name=0x...`. -/
def readNamed (name : List Char) (cs : List Char) : Option Bits128 :=
  if cs.take (name.length + 1) = name ++ ['='] then readBits128 (cs.drop (name.length + 1)) else none

/-- The words of a line, separated by blanks and commas; `acc` is the word being read, reversed. -/
def splitWords : List Char → List Char → List (List Char)
  | acc, [] => if acc.isEmpty then [] else [acc.reverse]
  | acc, c :: cs =>
    if c = ' ' ∨ c = ',' then
      if acc.isEmpty then splitWords [] cs else acc.reverse :: splitWords [] cs
    else splitWords (c :: acc) cs

/-- The line a list of lower-case words spells. The `m` of `BLOCKS m` is read as a size is, in decimal or
hexadecimal after `0x`: the model's choice, since R66 gives it no number format
(notes/assumptions/9.md). -/
def readWords : List (List Char) → Option Line
  | [m] => if m = "next_block".toList then some .nextBlock else none
  | [m, a] =>
    if m = "load_dt".toList then (readBits128 a).map .loadDt
    else if m = "generate".toList then (readNat a).map .generate
    else if m = "blocks".toList then (readNat a).map .blocks
    else if m = ".cmd".toList then
      match readNat a with
      | some op => if op < 16 then some (.cmd (BitVec.ofNat 4 op)) else none
      | none => none
    else none
  | [m, a, b] =>
    if m = "init".toList then
      match readNamed "key".toList a, readNamed "seed".toList b with
      | some key, some seed => some (.init key seed)
      | _, _ => none
    else none
  | [m, a, b, c] =>
    if m = "setup".toList then
      match readNamed "key".toList a, readNamed "seed".toList b, readNamed "dt".toList c with
      | some key, some seed, some dt => some (.setup key seed dt)
      | _, _, _ => none
    else none
  | _ => none

/-- One line of a listing (R65): mnemonics are case-insensitive and `;` starts a comment. The whole line
is read without regard to case, operand names, the `0x` prefix and hexadecimal digits included, and an
opcode of `.cmd` is read as a size is: the model's choices, since R65 says neither
(notes/assumptions/9.md). -/
def Line.read (text : String) : Option Line :=
  readWords (splitWords [] ((text.toList.takeWhile (· ≠ ';')).map Char.toLower))

/-- `n` digits of `w` in base `base`, most significant first. -/
def writeDigits (base n w : Nat) : List Char :=
  (List.range n).map (fun i => Nat.digitChar (w / base ^ (n - 1 - i) % base))

/-- A 128-bit operand: `0x` and 32 hexadecimal digits (R65). -/
def writeBits128 (w : Bits128) : String := "0x" ++ String.ofList (writeDigits 16 32 w.toNat)

/-- A size in hexadecimal, at least two digits as R69 and its programs write it. -/
def writeSize (n : Nat) : String :=
  "0x" ++ String.ofList (if n < 16 then writeDigits 16 2 n else Nat.toDigits 16 n)

/-- The assembler form of a command (R65); a reserved opcode is a `.cmd`. -/
def assembly : Instr → String
  | .init key seed => "INIT key=" ++ writeBits128 key ++ ", seed=" ++ writeBits128 seed
  | .loadDt dt => "LOAD_DT " ++ writeBits128 dt
  | .nextBlock => "NEXT_BLOCK"
  | .generate size => "GENERATE " ++ String.ofList (Nat.toDigits 10 size)
  | .reserved0 => ".cmd 0x0"
  | .reserved5 => ".cmd 0x5"
  | .reserved67 bit => ".cmd 0x" ++ String.ofList (writeDigits 16 1 (Instr.reserved67 bit).opcode.toNat)
  | .reserved8F low =>
    ".cmd 0x" ++ String.ofList ((writeDigits 16 1 (Instr.reserved8F low).opcode.toNat).map Char.toUpper)

/-- The operand fields a command reads, in hexadecimal (R69). -/
def operandText : Instr → String
  | .init key seed => " key=" ++ writeBits128 key ++ " seed=" ++ writeBits128 seed
  | .loadDt dt => " dt=" ++ writeBits128 dt
  | .nextBlock => ""
  | .generate size => " size=" ++ writeSize size
  | .reserved0 => ""
  | .reserved5 => ""
  | .reserved67 _ => ""
  | .reserved8F _ => ""

/-- A command as the spec's programs list it (R69): opcode bits, the operands read, assembler form. -/
def listed (i : Instr) : String :=
  "op=" ++ String.ofList (writeDigits 2 4 i.opcode.toNat) ++ operandText i ++ " | " ++ assembly i

end Sys2Proof.Machine
end

