-- ==== Sys2Proof/Machine/Whole.lean ====
section
/-! DEFINITION. A whole command as one function of the state, from its acceptance to the acceptance of
its response: what the steps of Control.lean must add up to (20_memory.md R51, 42_stream_generator.md
R101, R116); which commands a run accepts, and what its result is (70_reset_and_hazards.md R154). -/

namespace Sys2Proof.Machine

/-- A stream in progress with no beat waiting, run to the acceptance of its response (R101, R104,
R147). -/
def State.finishStream (E : Cipher) (s : State) : State :=
  match s.k, s.v with
  | some k, some v =>
    let bs := nbIter E k v s.dt (ceilDiv16 s.rem)
    { s with
      v := some bs.seed, dt := bs.dt, phase := .idle, rem := 0,
      calls := s.calls ++ iterCalls E k v s.dt (ceilDiv16 s.rem),
      beats := s.beats ++ beatsOf bs.outs s.rem,
      responses := s.responses ++ [.ok] }
  | _, _ => s

/-- A state just after a command was accepted, run to the acceptance of the command's response. -/
def State.finish (E : Cipher) (s : State) : State :=
  match s.resp with
  | some r => s.acceptResponse r
  | none => s.finishStream E

/-- The whole effect of a command accepted in state `s`. -/
def wholeCommand (E : Cipher) (i : Instr) (s : State) : State :=
  match exec i s with
  | .next t => t.finish E
  | .fault _ => s
  | .refused _ => s

/-- The command a step of this state accepts, if reset is not asserted in it (R55, R146). -/
def State.acceptedNow (s : State) : Option Command := if s.busy then none else s.pins.cmd

/-- The commands accepted in the next `n` steps, in order. -/
def acceptedIn (E : Cipher) : Nat → State → List Command
  | 0, _ => []
  | n + 1, s =>
    match stepWith E s with
    | .next t => s.acceptedNow.toList ++ acceptedIn E n t
    | .fault _ => []
    | .refused _ => []

/-- The result of a run (R154): beats, responses and cipher calls, and what the run leaves. -/
structure RunResult where
  beats     : List Beat
  responses : List Response
  calls     : List CipherCall
  k         : Option Bits128
  v         : Option Bits128
  dt        : Bits128
  loaded    : Bool
  dtO       : Bits128
  status    : BitVec 8
  deriving DecidableEq, Repr

/-- The result of a run that began in state `start` and ended in state `s`. -/
def State.resultSince (s start : State) : RunResult where
  beats     := s.beats.drop start.beats.length
  responses := s.responses.drop start.responses.length
  calls     := s.calls.drop start.calls.length
  k         := s.k
  v         := s.v
  dt        := s.dt
  loaded    := s.loaded
  dtO       := s.dtO
  status    := s.status

end Sys2Proof.Machine
end

