-- ==== Sys2Proof/Safety.lean ====
section
/-! DEFINITION. What holds of every state of a safe run: the invariants of 10_state.md R36 and R39. -/

namespace Sys2Proof.Machine

/-- A beat the output port may carry (30_encoding.md R61, 42_stream_generator.md R106): 1 to 16 bytes,
sixteen unless it is the last, and zeros in the lanes past them. -/
abbrev Beat.Valid (b : Beat) : Prop :=
  1 ≤ b.nbytes.toNat ∧ b.nbytes.toNat ≤ 16 ∧ (b.last = false → b.nbytes.toNat = 16) ∧
    b.data = keep b.data b.nbytes.toNat

/-- While IDLE no byte is owed and no beat waits; a waiting beat means STREAM (R36, R26). -/
abbrev State.IdleClear (s : State) : Prop := s.phase = .idle → s.rem = 0 ∧ s.outbuf = none

/-- A pending response means IDLE, so no beat waits either (R36). -/
abbrev State.RespIdle (s : State) : Prop := s.resp.isSome = true → s.phase = .idle

/-- K and V hold values exactly when LOADED is 1 (R24, R39). -/
abbrev State.LoadedHolds (s : State) : Prop := s.k.isSome = s.loaded ∧ s.v.isSome = s.loaded

/-- A stream in progress has a loaded generator and still owes the host something (R25, R124). -/
abbrev State.StreamOwes (s : State) : Prop :=
  s.phase = .stream → s.loaded = true ∧ (s.outbuf.isSome = true ∨ 0 < s.rem)

/-- A waiting beat is a valid one, and it is the last exactly when no byte is owed past it (R102). -/
abbrev State.OutbufValid (s : State) : Prop :=
  ∀ b ∈ s.outbuf, b.Valid ∧ b.last = decide (s.rem = 0)

/-- The invariant of the block's reachable states (R36, R39, R61). -/
abbrev State.Inv (s : State) : Prop :=
  s.IdleClear ∧ s.RespIdle ∧ s.LoadedHolds ∧ s.StreamOwes ∧ s.OutbufValid

/-- Every size in sight fits a size operand of SIZE_W bits: REM (R26) and the commands the environment
offers, now and later (R10, R113). -/
abbrev State.SizesFit (sizeW : Nat) (s : State) : Prop :=
  s.rem < 2 ^ sizeW ∧ ∀ p ∈ s.env, ∀ c ∈ p.cmd, c.fits sizeW = true

/-- The next step is no reset, and the host does not change what it offered (R142, R145). -/
abbrev State.Undisturbed (s : State) : Prop := s.pins.rst = false ∧ s.holds s.pins.cmd = true

/-- The next step accepts command `c` (R55, R146). -/
abbrev State.Accepts (s : State) (c : Command) : Prop :=
  s.Undisturbed ∧ s.pins.cmd = some c ∧ s.busy = false

/-- Reset is not asserted in any of the next `m` steps. -/
abbrev State.NoResetFor (s : State) (m : Nat) : Prop := ∀ p ∈ s.env.take m, p.rst = false

/-- The commands the environment offers in the next `m` steps, in order; one that waits is offered in
every step it waits. -/
def State.offered (s : State) (m : Nat) : List Command := (s.env.take m).filterMap Pins.cmd

end Sys2Proof.Machine
end

