-- ==== Sys2Proof/Certificates/Slice0/Obligations.lean ====
section
/-! DEFINITION. The statements about the model, each with the rule of spec/ it formalises. Statements
with a cipher argument hold for every cipher (00_scope.md R11, 92_eei_decisions.md D3). The state fields
`env`, `pending`, `beats` and `responses` are the model's own (log entries 4 to 6): where a statement
gives a whole next state, what it says of them is the model's bookkeeping and no rule of the spec. -/

open Sys2Proof Sys2Proof.Machine

/-! ### Encoding -/

/-- 30_encoding.md R57, R67: the opcode map, all sixteen opcodes, and which commands need LOADED. That
the reserved opcodes 0110 to 1111 keep the bits their table row leaves open, as `reserved67` and
`reserved8F` do, is the model's choice (log entry 10); R57 says only that they are reserved and read no
operand. -/
def Obligations.OpcodeMapDecodes : Prop :=
  ∀ c : Command,
    (c.op = 0b0000#4 → decode c = .reserved0) ∧
    (c.op = 0b0001#4 → decode c = .init c.key c.seed) ∧
    (c.op = 0b0010#4 → decode c = .loadDt c.dt) ∧
    (c.op = 0b0011#4 → decode c = .nextBlock) ∧
    (c.op = 0b0100#4 → decode c = .generate c.size) ∧
    (c.op = 0b0101#4 → decode c = .reserved5) ∧
    (c.op = 0b0110#4 → decode c = .reserved67 0) ∧
    (c.op = 0b0111#4 → decode c = .reserved67 1) ∧
    (8 ≤ c.op.toNat → decode c = .reserved8F (BitVec.ofNat 3 (c.op.toNat - 8))) ∧
    (∀ s : State, s.loaded = false →
      (exec (decode c) s = .next { s with resp := some .notLoaded } ↔
        c.op = 0b0011#4 ∨ c.op = 0b0100#4)) ∧
    ∀ s : State, c.op = 0b0000#4 → exec (decode c) s = .next { s with resp := some .illegalOp }

/-- 30_encoding.md R56: an operand field the command does not read has no effect, at the decoder and
so in every later step. -/
def Obligations.UnreadOperandsIgnored : Prop :=
  ∀ c c' : Command, c.op = c'.op →
    (c.op = 0b0001#4 → c.key = c'.key ∧ c.seed = c'.seed) →
    (c.op = 0b0010#4 → c.dt = c'.dt) →
    (c.op = 0b0100#4 → c.size = c'.size) →
    decode c = decode c' ∧
      ∀ (E : Cipher) (s : State) (p : Pins) (ps : List Pins), s.busy = false → s.pending = none →
        stepWith E { s with env := { p with cmd := some c } :: ps } =
          stepWith E { s with env := { p with cmd := some c' } :: ps }

/-- Decode and encode agree for every command a port of any width SIZE_W can carry, also through the
numeric picture of the record (the model's own layout, log entry 3). -/
def Obligations.DecodeEncodeRoundTrip : Prop :=
  ∀ (sizeW : Nat) (i : Instr), i.wellFormed sizeW = true →
    decode (encode i) = i ∧ (encode i).fits sizeW = true ∧
      Command.ofWord (encode i).toWord = encode i ∧
      decodeTableWord (388 + sizeW) (encode i).toWord = some i

/-- Encoding what was decoded keeps the opcode and the operands read, and puts 0 in every field the
command does not read (R56, R65). -/
def Obligations.EncodeDecodeCanonical : Prop :=
  ∀ c : Command,
    encode (decode c) =
      { op := c.op
        key := if c.op = 0b0001#4 then c.key else 0
        seed := if c.op = 0b0001#4 then c.seed else 0
        dt := if c.op = 0b0010#4 then c.dt else 0
        size := if c.op = 0b0100#4 then c.size else 0 }

/-- A few words decode to the commands they stand for. Only the place of the opcode in the word is the
opcode table's; the zero operands come from the model's numeric picture of the record (log entry 3), and
the bits that `reserved67` and `reserved8F` carry are the model's choice too (log entry 10). -/
def Obligations.TableWordsDecode : Prop :=
  decodeTableWord 8 0b0000 = some .reserved0 ∧
  decodeTableWord 8 0b0001 = some (.init 0 0) ∧
  decodeTableWord 8 0b0010 = some (.loadDt 0) ∧
  decodeTableWord 8 0b0011 = some .nextBlock ∧
  decodeTableWord 8 0b0100 = some (.generate 0) ∧
  decodeTableWord 8 0b0101 = some .reserved5 ∧
  decodeTableWord 8 0b0111 = some (.reserved67 1) ∧
  decodeTableWord 8 0b1111 = some (.reserved8F 7)

/-- 30_encoding.md R62, 60_exceptions.md R121: the response codes; 11 is never produced. -/
def Obligations.ResponseCodes : Prop :=
  Response.ok.code = 0b00#2 ∧ Response.illegalOp.code = 0b01#2 ∧ Response.notLoaded.code = 0b10#2 ∧
    ∀ s : State, s.hostView.rsp ≠ some 0b11#2

/-- 30_encoding.md R66, 40_initialisation.md R74, R75: SETUP is INIT then LOAD_DT, and from any ready
state of the invariant its commands, offered and answered one after the other, leave exactly `(k, s, d)`, loaded, with
nothing else changed but the two responses. -/
def Obligations.SetupBuildsInitialState : Prop :=
  ∀ (E : Cipher) (s : State) (key seed d : Bits128) (c₁ c₂ : Command),
    (Line.setup key seed d).assemble = [c₁, c₂] → s.Inv → s.busy = false → s.pending = none →
    s.env = [{ cmd := some c₁ }, { rspReady := true }, { cmd := some c₂ }, { rspReady := true }] →
    runWith E 4 s =
      .next { s with
        k := some key, v := some seed, dt := d, loaded := true,
        responses := s.responses ++ [.ok, .ok], env := [] }

/-! ### Commands at acceptance -/

/-- 40_initialisation.md R70, R72: INIT. STATUS is 0x03 until the response is accepted, then 0x02. -/
def Obligations.InitConstructsGenerator : Prop :=
  ∀ (key seed : Bits128) (s : State),
    (∀ c : Command, c.op = 0b0001#4 → c.key = key → c.seed = seed → decode c = .init key seed) ∧
    ∃ t, exec (.init key seed) s = .next t ∧
      t = { s with k := some key, v := some seed, dt := 0, loaded := true, resp := some .ok } ∧
      t.status = 0x03#8 ∧ t.dtO = 0 ∧
      (s.phase = .idle → (t.acceptResponse .ok).status = 0x02#8)

/-- 40_initialisation.md R73: LOAD_DT, loaded or not. BUSY is 1 until the response is accepted. -/
def Obligations.LoadDtSetsCounter : Prop :=
  ∀ (dt : Bits128) (s : State),
    (∀ c : Command, c.op = 0b0010#4 → c.dt = dt → decode c = .loadDt dt) ∧
    ∃ t, exec (.loadDt dt) s = .next t ∧ t = { s with dt := dt, resp := some .ok } ∧
      t.dtO = dt ∧ t.status.getLsbD 0 = true ∧ t.status.getLsbD 1 = s.loaded ∧
      (s.phase = .idle → (t.acceptResponse .ok).status.getLsbD 0 = false)

/-- 41_block_generator.md R97: NEXT_BLOCK, from its acceptance by a loaded generator (state `t`) through
its one block step (`u`) and the acceptance of its one beat (`w`) to that of its response; BUSY is 1
until then. Its effect at acceptance is exactly that of GENERATE 16. -/
def Obligations.NextBlockProducesOneBlock : Prop :=
  ∀ (E : Cipher) (s : State) (k v : Bits128),
    (∀ c : Command, c.op = 0b0011#4 → decode c = .nextBlock) ∧
    exec .nextBlock s = exec (.generate 16) s ∧
    (s.loaded = false → exec .nextBlock s = .next { s with resp := some .notLoaded }) ∧
    (s.loaded = true → s.k = some k → s.v = some v →
      let b : Beat := ⟨(nb E k v s.dt).out, 16#5, true⟩
      ∃ t u w,
        exec .nextBlock s = .next t ∧ t = { s with phase := .stream, rem := 16 } ∧ t.busy = true ∧
        blockStepWith E t = .next u ∧
        u = { t with
          rem := 0, v := some (nb E k v s.dt).seed, dt := (nb E k v s.dt).dt, outbuf := some b,
          calls := s.calls ++ nbCalls E k v s.dt } ∧ u.busy = true ∧
        u.acceptBeat b = w ∧
        w = { u with
          phase := .idle, outbuf := none, resp := some .ok, beats := s.beats ++ [b] } ∧
        w.busy = true ∧ (w.acceptResponse .ok).busy = false)

/-- 42_stream_generator.md R100, R112: GENERATE at acceptance, for every size. -/
def Obligations.GenerateAtAcceptance : Prop :=
  ∀ (n : Nat) (s : State),
    (s.loaded = true → 0 < n →
      ∃ t, exec (.generate n) s = .next t ∧ t = { s with phase := .stream, rem := n } ∧
        t.status.getLsbD 0 = true) ∧
    (s.loaded = true → n = 0 → exec (.generate n) s = .next { s with resp := some .ok }) ∧
    (s.loaded = false → exec (.generate n) s = .next { s with resp := some .notLoaded })

/-- 60_exceptions.md R122, R125: a reserved opcode is rejected with ILLEGAL_OP whatever LOADED is, and
changes nothing but RESP. -/
def Obligations.ReservedOpcodesReject : Prop :=
  ∀ (s : State) (b : BitVec 1) (l : BitVec 3),
    exec .reserved0 s = .next { s with resp := some .illegalOp } ∧
    exec .reserved5 s = .next { s with resp := some .illegalOp } ∧
    exec (.reserved67 b) s = .next { s with resp := some .illegalOp } ∧
    exec (.reserved8F l) s = .next { s with resp := some .illegalOp } ∧
    ∀ c : Command, (c.op = 0 ∨ 5 ≤ c.op.toNat) →
      exec (decode c) s = .next { s with resp := some .illegalOp }

/-- 60_exceptions.md R124: NEXT_BLOCK and GENERATE of any size are rejected while LOADED = 0, INIT and
LOAD_DT never are, and that is the only case in which a command that names a real operation is rejected:
any other rejected command is a reserved opcode, answered ILLEGAL_OP. -/
def Obligations.NotLoadedRejects : Prop :=
  ∀ s : State,
    (s.loaded = false →
      exec .nextBlock s = .next { s with resp := some .notLoaded } ∧
      ∀ n, exec (.generate n) s = .next { s with resp := some .notLoaded }) ∧
    (∀ key seed, ∃ t, exec (.init key seed) s = .next t ∧ t.resp = some .ok) ∧
    (∀ d, ∃ t, exec (.loadDt d) s = .next t ∧ t.resp = some .ok) ∧
    ∀ i t r, s.resp = none → exec i s = .next t → t.resp = some r → r ≠ .ok →
      (r = .notLoaded ∧ s.loaded = false ∧ (i = .nextBlock ∨ ∃ n, i = .generate n)) ∨
        (r = .illegalOp ∧ (i.opcode = 0b0000#4 ∨ 0b0101#4 ≤ i.opcode))

/-- 60_exceptions.md R123: whichever command it is, one that ends rejected changed nothing but RESP. -/
def Obligations.RejectionChangesOnlyResp : Prop :=
  ∀ (i : Instr) (s t : State), s.resp = none → exec i s = .next t →
    ∀ r, t.resp = some r → r ≠ .ok → t = { s with resp := some r }

/-- Every accepted command makes the block busy in exactly one way: it responds at once, or it starts a
stream of a loaded generator and owes its response (20_memory.md R51, 92_eei_decisions.md D16). -/
def Obligations.CommandRespondsOrStreams : Prop :=
  ∀ (i : Instr) (s : State), s.busy = false →
    ∃ t, exec i s = .next t ∧ t.busy = true ∧
      ((t.resp.isSome = true ∧ t.phase = .idle ∧ t.rem = s.rem) ∨
        (t.resp = none ∧ t.phase = .stream ∧ 0 < t.rem ∧ t.loaded = true ∧ t.k = s.k ∧ t.v = s.v ∧
          t.dt = s.dt))

/-! ### Steps -/

/-- When the wires carry a command the block can accept, the step is exec of the decoded command, on
the state whose next pins are used up and which has nothing offered and waiting (R55, R146). -/
def Obligations.StepRunsDecodedCommand : Prop :=
  ∀ (s : State) (c : Command), s.Accepts c →
    step s = exec (decode c) { s with env := s.env.tail, pending := none }

/-- The very next step runs the command of a word placed by `withFetchWord` (the model's own placing,
log entry 3); in a state that is ready and whose environment has nothing to say it only adds the
offer. -/
def Obligations.PlacedWordRuns : Prop :=
  ∀ (s : State) (nbits w : Nat),
    (∃ i, decodeTableWord nbits w = some i ∧
      step (s.withFetchWord nbits w) =
        exec i { s.madeReady with env := s.env.tail, pending := none }) ∧
    s.madeReady.busy = false ∧ (s.busy = false → s.madeReady = s)

/-- 70_reset_and_hazards.md R146: a command offered while BUSY = 1 is neither lost nor executed, it
waits: the step is the one without the offer, and the command is still pending after it. -/
def Obligations.BusyCommandWaits : Prop :=
  ∀ (E : Cipher) (s : State) (p : Pins) (ps : List Pins) (c : Command),
    s.busy = true → s.env = { p with cmd := some c, rst := false } :: ps → s.holds (some c) = true →
    ∀ t, stepWith E { s with env := { p with cmd := none, rst := false } :: ps, pending := none } =
        .next t →
      stepWith E s = .next { t with pending := some c }

/-- 42_stream_generator.md R102: the block step, which commits V, DT, REM and the beat together and
records its three calls. The pin by which the cipher answers is the model's (log entry 4). -/
def Obligations.BlockStepAdvances : Prop :=
  ∀ (E : Cipher) (s : State) (k v : Bits128), s.Undisturbed → s.pins.cphAnswer = true →
    s.phase = .stream → s.outbuf = none → 0 < s.rem → s.k = some k → s.v = some v →
    stepWith E s =
      .next { s with
        v := some (nb E k v s.dt).seed, dt := (nb E k v s.dt).dt, rem := s.rem - min 16 s.rem,
        outbuf := some
          { data := keep (nb E k v s.dt).out (min 16 s.rem)
            nbytes := BitVec.ofNat 5 (min 16 s.rem)
            last := decide (s.rem = min 16 s.rem) },
        calls := s.calls ++ nbCalls E k v s.dt,
        env := s.env.tail, pending := s.pins.cmd }

/-- 42_stream_generator.md R104: beat acceptance, and the wait while the host does not take the beat. -/
def Obligations.BeatAcceptance : Prop :=
  ∀ (E : Cipher) (s : State) (b : Beat), s.Undisturbed → s.busy = true → s.outbuf = some b →
    (s.pins.outReady = false →
      stepWith E s = .next { s with env := s.env.tail, pending := s.pins.cmd }) ∧
    (s.pins.outReady = true → ∃ t, stepWith E s = .next t ∧
      t = { s with
        outbuf := none, beats := s.beats ++ [b],
        phase := if b.last = true then .idle else s.phase,
        resp := if b.last = true then some .ok else s.resp,
        env := s.env.tail, pending := s.pins.cmd } ∧
      t.streamBytes = s.streamBytes ++ (bytes16 b.data).take b.nbytes.toNat)

/-- 70_reset_and_hazards.md R147: response acceptance, after which BUSY is 0, and the wait while the host
does not take the response (R145, 10_state.md R28). -/
def Obligations.ResponseAcceptance : Prop :=
  ∀ (E : Cipher) (s : State) (r : Response), s.Undisturbed → s.Inv → s.resp = some r →
    (s.pins.rspReady = false →
      stepWith E s = .next { s with env := s.env.tail, pending := s.pins.cmd }) ∧
    (s.pins.rspReady = true → ∃ t, stepWith E s = .next t ∧
      t = { s with
        resp := none, responses := s.responses ++ [r], env := s.env.tail, pending := s.pins.cmd } ∧
      t.busy = false ∧ t.cmdReady = true)

/-- 70_reset_and_hazards.md R140 to R143: reset in any state, during any command, whatever else is
driven. -/
def Obligations.ResetFromAnyState : Prop :=
  ∀ (E : Cipher) (s : State), s.pins.rst = true →
    ∃ t, stepWith E s = .next t ∧
      t.k = none ∧ t.v = none ∧ t.dt = 0 ∧ t.loaded = false ∧ t.phase = .idle ∧ t.rem = 0 ∧
      t.outbuf = none ∧ t.resp = none ∧
      t.status = 0x00#8 ∧ t.dtO = 0 ∧ t.cmdReady = true ∧ t.outValid = false ∧ t.rspValid = false ∧
      t.blockEnabled = false

/-- A reset delivers nothing, takes nothing back and calls no cipher: the histories the model keeps stay
as they were (10_state.md R33 offers that, 93_implementation_defined.md I20; the model's choice, log
entry 5). -/
def Obligations.ResetKeepsHistory : Prop :=
  ∀ (E : Cipher) (s : State), s.pins.rst = true →
    ∃ t, stepWith E s = .next t ∧
      t.calls = s.calls ∧ t.beats = s.beats ∧ t.responses = s.responses ∧ t.pending = none

/-- 10_state.md R35: the state after reset, and that it stays as it is, whatever else the environment
drives, until a command is offered (R141). -/
def Obligations.ResetValues : Prop :=
  ∀ (E : Cipher) (ps : List Pins) (m : Nat), (∀ p ∈ ps.take m, p.cmd = none) →
    ∃ t, runWith E m { State.reset with env := ps } = .next t ∧
      t.k = none ∧ t.v = none ∧ t.dt = 0 ∧ t.loaded = false ∧ t.phase = .idle ∧ t.rem = 0 ∧
      t.outbuf = none ∧ t.resp = none ∧ t.status = 0x00#8 ∧ t.dtO = 0 ∧ t.blockEnabled = false ∧
      t.calls = []

/-- 70_reset_and_hazards.md R148: for as many steps as the host withholds `out_ready`, a waiting beat
stays, V and DT do not advance and the cipher is not called. -/
def Obligations.BackpressureHolds : Prop :=
  ∀ (E : Cipher) (m : Nat) (s t : State) (b : Beat), s.phase = .stream → s.outbuf = some b →
    s.NoResetFor m → (∀ p ∈ s.env.take m, p.outReady = false) → runWith E m s = .next t →
    t = { s with env := t.env, pending := t.pending }

/-- A cipher that does not answer leaves the block in its block step, with its state unchanged, for as
long as it does not (41_block_generator.md R90, I5; the pin is the model's, log entry 4). -/
def Obligations.SilentCipherWaits : Prop :=
  ∀ (E : Cipher) (m : Nat) (s t : State), s.blockEnabled = true →
    s.NoResetFor m → (∀ p ∈ s.env.take m, p.cphAnswer = false) → runWith E m s = .next t →
    t = { s with env := t.env, pending := t.pending }

/-- 70_reset_and_hazards.md R151, I16: a cipher answer while no block step is running is ignored. -/
def Obligations.StrayCipherAnswerIgnored : Prop :=
  ∀ (E : Cipher) (s : State) (p : Pins) (ps : List Pins), s.blockEnabled = false →
    stepWith E { s with env := { p with cphAnswer := true } :: ps } =
      stepWith E { s with env := { p with cphAnswer := false } :: ps }

/-! ### What no step does -/

/-- 41_block_generator.md R88: a block step makes exactly three cipher calls, in order, all with key K,
and no other step, an accepted command included, makes any. That the three are recorded together when
the block step completes, so that a step whose cipher is silent and a reset that falls into a block step
record none, is the model's choice (log entry 1), and so is the pin by which the cipher answers (log
entry 4). -/
def Obligations.CipherCallsOnlyInBlockSteps : Prop :=
  ∀ (E : Cipher) (s t : State), stepWith E s = .next t →
    if s.pins.rst = false ∧ s.blockEnabled = true ∧ s.pins.cphAnswer = true then
      ∃ k v, s.k = some k ∧ s.v = some v ∧
        t.calls = s.calls ++
          [⟨k, s.dt⟩, ⟨k, E k s.dt ^^^ v⟩, ⟨k, E k (E k s.dt ^^^ v) ^^^ E k s.dt⟩] ∧
        t.v = some (E k (E k (E k s.dt ^^^ v) ^^^ E k s.dt)) ∧ t.dt = s.dt + 1
    else t.calls = s.calls

/-- 40_initialisation.md R71, 10_state.md R21, R36: no step but a reset or an INIT changes K. -/
def Obligations.KeyWrittenOnlyByInit : Prop :=
  ∀ (E : Cipher) (s t : State), stepWith E s = .next t → t.k ≠ s.k →
    (s.pins.rst = true ∧ t.k = none) ∨
      ∃ c key seed, s.Accepts c ∧ decode c = .init key seed ∧ t.k = some key ∧ t.v = some seed ∧
        t.dt = 0 ∧ t.loaded = true

/-- 10_state.md R24: LOADED is set by INIT alone and cleared by reset alone. -/
def Obligations.LoadedSetByInitClearedByReset : Prop :=
  ∀ (E : Cipher) (s t : State), stepWith E s = .next t →
    (s.loaded = true → t.loaded = false → s.pins.rst = true) ∧
    (s.loaded = false → t.loaded = true →
      ∃ c, s.Accepts c ∧ c.op = 0b0001#4 ∧ t.k = some c.key ∧ t.v = some c.seed)

/-- 10_state.md R23: DT is written by reset (0), INIT (0), LOAD_DT and the block step (+1), and by
nothing else. -/
def Obligations.CounterWriters : Prop :=
  ∀ (E : Cipher) (s t : State), stepWith E s = .next t →
    t.dt = s.dt ∨ (s.pins.rst = true ∧ t.dt = 0) ∨
      (∃ c, s.Accepts c ∧ c.op = 0b0001#4 ∧ t.dt = 0) ∨
      (∃ c, s.Accepts c ∧ c.op = 0b0010#4 ∧ t.dt = c.dt) ∨
      (s.blockEnabled = true ∧ s.pins.cphAnswer = true ∧ t.dt = s.dt + 1)

/-- 10_state.md R31: but for the data of a beat, what the host sees after a step does not depend on the
values of K and V; no step but the block step lets them show at all. -/
def Obligations.SecretsNotVisible : Prop :=
  ∀ (E : Cipher) (s t : State) (k' v' : Option Bits128), k'.isSome = s.k.isSome →
    v'.isSome = s.v.isSome → stepWith E s = .next t →
    ∃ t', stepWith E { s with k := k', v := v' } = .next t' ∧
      { t'.hostView with out := t.hostView.out } = t.hostView ∧
      t'.outbuf.map (fun b => (b.nbytes, b.last)) = t.outbuf.map (fun b => (b.nbytes, b.last)) ∧
      (s.blockEnabled = false → t'.hostView = t.hostView)

/-- 42_stream_generator.md R106: the beat does not depend on the bytes of the block that are dropped. -/
def Obligations.DroppedBytesNotVisible : Prop :=
  ∀ (s : State) (r r' : Bits128), (∀ i < s.keptBytes, byteOf r i = byteOf r' i) →
    s.nextBeat r = s.nextBeat r'

/-- 20_memory.md R50: an instance steps whenever it would step alone, whatever the others hold; its step
gives it what it would give it alone, and leaves every other as it was. -/
def Obligations.InstancesIndependent : Prop :=
  ∀ (E : Cipher) (sys : List State) (n : Fin sys.length),
    (∀ t, stepWith E sys[n] = .next t → stepInstance E sys n = .next (sys.set n t)) ∧
    ∀ sys', stepInstance E sys n = .next sys' →
      sys'.length = sys.length ∧ (∀ m, m ≠ n.val → sys'[m]? = sys[m]?) ∧
      ∃ t, stepWith E sys[n] = .next t ∧ sys'[n.val]? = some t

/-! ### Invariants -/

/-- The invariant holds after reset. -/
def Obligations.ResetMeetsInvariant : Prop := State.reset.Inv

/-- 10_state.md R36: from every state that meets the invariant, every step that goes on gives a state
that meets it. -/
def Obligations.StepKeepsInvariant : Prop :=
  ∀ s t : State, s.Inv → step s = .next t → t.Inv

/-- 10_state.md R39: in every state a block step that would read an absent K or V faults, and a step
faults in no other case; from a state that meets the invariant no step faults. A step is refused exactly
when the host breaks its duty of R145, that is, offers another command, or other operands that it reads,
than the one that waits (I3). A command no longer offered is not accepted, and the step is the one of a
state in which nothing waits (R55; that the offer is then over is the model's choice, log entry 6). -/
def Obligations.NoFaultAndOnlyHostRefused : Prop :=
  ∀ (E : Cipher) (s : State),
    (s.k = none → blockStepWith E s = .fault .absentKey) ∧
    (∀ k, s.k = some k → s.v = none → blockStepWith E s = .fault .absentSeed) ∧
    (∀ f, stepWith E s = .fault f →
      s.blockEnabled = true ∧ s.pins.cphAnswer = true ∧ s.pins.rst = false ∧
        (f = .absentKey ∧ s.k = none ∨ f = .absentSeed ∧ s.v = none)) ∧
    (s.Inv → ∀ f, stepWith E s ≠ .fault f) ∧
    (s.pins.cmd = none → ∀ q, stepWith E s = stepWith E { s with pending := q }) ∧
    ∀ r, stepWith E s = .refused r ↔
      r = .commandNotHeld ∧ s.pins.rst = false ∧
        ∃ c c', s.pending = some c ∧ s.pins.cmd = some c' ∧ decode c ≠ decode c'

/-- REM and every offered size keep fitting in SIZE_W bits, for every width that holds NEXT_BLOCK's
sixteen (10_state.md R26, 00_scope.md R10; log entry 2). -/
def Obligations.SizesKeepFitting : Prop :=
  ∀ (E : Cipher) (sizeW : Nat) (s t : State), 5 ≤ sizeW → s.SizesFit sizeW → stepWith E s = .next t →
    t.SizesFit sizeW

/-- 10_state.md R29, R30, 70_reset_and_hazards.md R146: STATUS, `dt_o` and `cmd_ready` in every state. -/
def Obligations.StatusWord : Prop :=
  ∀ s : State,
    (s.status.getLsbD 0 = true ↔ s.phase = .stream ∨ s.resp.isSome = true) ∧
    s.status.getLsbD 1 = s.loaded ∧ (∀ i, 2 ≤ i → s.status.getLsbD i = false) ∧
    s.dtO = s.dt ∧ (s.cmdReady = true ↔ s.status.getLsbD 0 = false) ∧
    State.reset.status = 0x00#8 ∧ State.reset.dtO = 0

/-! ### The block function -/

/-- 41_block_generator.md R80 to R86: NB. -/
def Obligations.BlockFunction : Prop :=
  ∀ (E : Cipher) (k v dt : Bits128),
    let i := E k dt
    let r := E k (i ^^^ v)
    (nb E k v dt).out = r ∧ (nb E k v dt).seed = E k (r ^^^ i) ∧ (nb E k v dt).dt = dt + 1 ∧
      nbCalls E k v dt = [⟨k, dt⟩, ⟨k, i ^^^ v⟩, ⟨k, r ^^^ i⟩]

/-- 41_block_generator.md R96, R95: coincident values. -/
def Obligations.BlockCornerCases : Prop :=
  ∀ (E : Cipher) (k v dt : Bits128),
    (v = E k dt → (nb E k v dt).out = E k 0) ∧
    (v = 0 → (nb E k v dt).out = E k (E k dt)) ∧
    ((nb E k v dt).out = E k dt → (nb E k v dt).seed = E k 0)

/-- 41_block_generator.md R93, R83: the wrap. The maximum is encrypted like any other value, the
counter is 0 after it, and the next block is that of a fresh generator with DT = 0. -/
def Obligations.CounterWraps : Prop :=
  ∀ (E : Cipher) (k v : Bits128),
    let b := nb E k v 0xffffffffffffffffffffffffffffffff#128
    (nbCalls E k v 0xffffffffffffffffffffffffffffffff#128).head? =
        some ⟨k, 0xffffffffffffffffffffffffffffffff#128⟩ ∧
      b.dt = 0 ∧ (∀ n, nbIter E k b.seed b.dt n = nbIter E k b.seed 0 n) ∧
      ∀ dt : Bits128, (nbDt dt).toNat = (dt.toNat + 1) % 2 ^ 128

/-- 41_block_generator.md R92: N blocks give N outputs and advance DT by N modulo 2^128, and running on
for N' more is running N + N'. -/
def Obligations.BlocksAdvanceCounter : Prop :=
  ∀ (E : Cipher) (k v dt : Bits128) (n n' : Nat),
    let a := nbIter E k v dt n
    let b := nbIter E k a.seed a.dt n'
    a.dt.toNat = (dt.toNat + n) % 2 ^ 128 ∧ a.outs.length = n ∧
      nbIter E k v dt 1 = ⟨[(nb E k v dt).out], (nb E k v dt).seed, (nb E k v dt).dt⟩ ∧
      nbIter E k v dt (n + n') = ⟨a.outs ++ b.outs, b.seed, b.dt⟩

/-- 41_block_generator.md R94: in 2^128 consecutive blocks DT takes every value exactly once. -/
def Obligations.CounterPeriod : Prop :=
  ∀ (E : Cipher) (k v dt x : Bits128),
    ∃ n, n < 2 ^ 128 ∧ (nbIter E k v dt n).dt = x ∧
      ∀ m, m < 2 ^ 128 → (nbIter E k v dt m).dt = x → m = n

/-! ### Bytes -/

/-- 20_memory.md R42, 00_scope.md R15: byte i of a word is its big-endian byte i, and a word is the same
thing as its sixteen bytes. -/
def Obligations.BigEndianBytes : Prop :=
  ∀ (dt : Bits128),
    (∀ i, i < 16 → (byteOf dt i).toNat = dt.toNat / 2 ^ (8 * (15 - i)) % 256) ∧
      (bytes16 dt).length = 16 ∧ wordOfBytes (bytes16 dt) = dt ∧
      ∀ (E : Cipher) (k v : Bits128), (nbCalls E k v dt).head? = some ⟨k, dt⟩

/-- 20_memory.md R43, 41_block_generator.md R87: XOR is byte-wise and commutative. -/
def Obligations.XorByteWise : Prop :=
  ∀ (a b : Bits128), xor128 a b = xor128 b a ∧
    (∀ i, i < 128 → (xor128 a b).getLsbD i = (a.getLsbD i ^^ b.getLsbD i)) ∧
    ∀ i, i < 16 → byteOf (xor128 a b) i = byteOf a i ^^^ byteOf b i

/-- 20_memory.md R45, 42_stream_generator.md R106: the lanes of a beat: the first `min(16, REM)` are
the block's bytes, the others 0. -/
def Obligations.BeatLanes : Prop :=
  ∀ (s : State) (r : Bits128) (i : Nat), i < 16 →
    (s.nextBeat r).nbytes.toNat = min 16 s.rem ∧
    byteOf (s.nextBeat r).data i = if i < (s.nextBeat r).nbytes.toNat then byteOf r i else 0

/-! ### Streams -/

/-- 42_stream_generator.md R107: the exact length, for every size. -/
def Obligations.ExactLength : Prop :=
  ∀ (E : Cipher) (k v dt : Bits128) (n : Nat), (gen E k v dt n).stream.length = n

/-- 42_stream_generator.md R108: block multiples are not truncated. -/
def Obligations.BlockMultipleExact : Prop :=
  ∀ (E : Cipher) (k v dt : Bits128) (m : Nat),
    (gen E k v dt (16 * m)).stream = (nbIter E k v dt m).outs.flatMap bytes16

/-- 20_memory.md R44: byte j of a stream is byte `j mod 16` of block `floor(j / 16)`. -/
def Obligations.StreamByteOrder : Prop :=
  ∀ (E : Cipher) (k v dt : Bits128) (n j : Nat), j < n →
    ∃ r, (nbIter E k v dt (ceilDiv16 n)).outs[j / 16]? = some r ∧
      (gen E k v dt n).stream[j]? = some (byteOf r (j % 16))

/-- 42_stream_generator.md R109: two requests in a row against one of their sum. -/
def Obligations.SequentialRequests : Prop :=
  ∀ (E : Cipher) (k v dt : Bits128) (n₁ n₂ : Nat),
    let g₁ := gen E k v dt n₁
    let g₂ := gen E k g₁.seed g₁.dt n₂
    let g := gen E k v dt (n₁ + n₂)
    let q := ceilDiv16 n₁ + ceilDiv16 n₂
    (n₁ % 16 = 0 → g = ⟨g₁.stream ++ g₂.stream, g₂.seed, g₂.dt⟩) ∧
    (n₁ % 16 ≠ 0 → 0 < n₂ →
      g₁.stream = g.stream.take n₁ ∧
      g₂.stream = (((nbIter E k v dt q).outs.drop (ceilDiv16 n₁)).flatMap bytes16).take n₂ ∧
      g₂.seed = (nbIter E k v dt q).seed ∧ g₂.dt = (nbIter E k v dt q).dt)

/-- 42_stream_generator.md R111: GENERATE 20 is block 1 and the first four bytes of block 2. -/
def Obligations.TwentyBytes : Prop :=
  ∀ (E : Cipher) (k v dt : Bits128),
    let b := nb E k v dt
    (gen E k v dt 20).stream = bytes16 b.out ++ (bytes16 (nb E k b.seed b.dt).out).take 4

/-- 42_stream_generator.md R116, R110: whatever the host and the cipher delay, once a GENERATE accepted
by a loaded generator has its response, the host has received exactly the stream of GEN and the
generator is left as GEN says. That no further response was accepted keeps the run inside the one
command. -/
def Obligations.GenerateDelivers : Prop :=
  ∀ (E : Cipher) (s t : State) (c : Command) (k v : Bits128) (m : Nat),
    s.Inv → s.Accepts c → decode c = .generate c.size → s.k = some k → s.v = some v →
    s.NoResetFor m → runWith E m s = .next t → t.responses = s.responses → t.resp.isSome = true →
    t.resp = some .ok ∧ t.phase = .idle ∧ t.k = some k ∧ t.loaded = true ∧
      t.streamBytes = s.streamBytes ++ (gen E k v s.dt c.size).stream ∧
      t.v = some (gen E k v s.dt c.size).seed ∧
      t.dt = (gen E k v s.dt c.size).dt ∧
      t.dt.toNat = (s.dt.toNat + ceilDiv16 c.size) % 2 ^ 128 ∧
      t.calls.length = s.calls.length + 3 * ceilDiv16 c.size

/-- 42_stream_generator.md R105, R152: with an environment that takes and answers everything, a
GENERATE n reaches its response after its acceptance and `2 * ceil(n/16)` steps, in `ceil(n/16)` beats
of sixteen bytes each but for the last. -/
def Obligations.GenerateCompletes : Prop :=
  ∀ (E : Cipher) (s : State) (n : Nat) (rest : List Pins), s.Inv → s.busy = false →
    s.pending = none → s.loaded = true →
    s.env = { Pins.eager with cmd := some (encode (.generate n)) } ::
      (List.replicate (2 * ceilDiv16 n) Pins.eager ++ rest) →
    ∃ t bs, runWith E (1 + 2 * ceilDiv16 n) s = .next t ∧ t.resp = some .ok ∧ t.phase = .idle ∧
      t.env = rest ∧ t.responses = s.responses ∧ t.beats = s.beats ++ bs ∧
      bs.length = ceilDiv16 n ∧
      ∀ j b, bs[j]? = some b →
        b.nbytes.toNat = (if j + 1 < ceilDiv16 n then 16 else n - 16 * (ceilDiv16 n - 1)) ∧
          b.last = decide (j + 1 = ceilDiv16 n)

/-- 70_reset_and_hazards.md R149: during a GENERATE, `dt_o` is DT_0 plus the beats accepted, plus one if
a beat waits. -/
def Obligations.CounterOutputDuringStream : Prop :=
  ∀ (E : Cipher) (s t : State) (c : Command) (m : Nat),
    s.Inv → s.Accepts c → decode c = .generate c.size → s.loaded = true →
    s.NoResetFor (m + 1) → runWith E (m + 1) s = .next t → t.responses = s.responses →
    s.beats.length ≤ t.beats.length ∧
      t.dtO.toNat =
        (s.dt.toNat + (t.beats.length - s.beats.length) + if t.outbuf.isSome = true then 1 else 0) %
          2 ^ 128

/-- 20_memory.md R51: every run without reset from one ready state to another is, but for the
environment's own fields, the commands it accepted, whole and in order, out of those offered: commands
never overlap, each has exactly one response, and no timing shows in beats, responses, cipher calls or
generator. -/
def Obligations.RunsAreWholeCommands : Prop :=
  ∀ (E : Cipher) (s t : State) (m : Nat), s.Inv → s.busy = false → s.NoResetFor m →
    runWith E m s = .next t → t.busy = false →
    (acceptedIn E m s).Sublist (s.offered m) ∧
      t.responses.length = s.responses.length + (acceptedIn E m s).length ∧
      t = { (acceptedIn E m s).foldl (fun u c => wholeCommand E (decode c) u) s with
        env := t.env, pending := t.pending }

/-- 10_state.md R38: two instances with equal generators that accept the same commands have the same
result, whatever came before and whatever the timing of the handshakes. -/
def Obligations.Determinism : Prop :=
  ∀ (E : Cipher) (s s' t t' : State) (m m' : Nat),
    s.Inv → s.busy = false → s.NoResetFor m → runWith E m s = .next t → t.busy = false →
    s'.Inv → s'.busy = false → s'.NoResetFor m' → runWith E m' s' = .next t' → t'.busy = false →
    s'.k = s.k → s'.v = s.v → s'.dt = s.dt → s'.loaded = s.loaded →
    acceptedIn E m' s' = acceptedIn E m s → t'.resultSince s' = t.resultSince s

/-! ### Idle steps and the writers of V -/

/-- 60_exceptions.md R135: an idle block that is offered no command keeps all its state, in every state
and whatever else the environment drives. -/
def Obligations.IdleStepKeepsState : Prop :=
  ∀ (E : Cipher) (s : State), s.pins.rst = false → s.busy = false → s.pins.cmd = none →
    stepWith E s = .next { s with env := s.env.tail, pending := none }

/-- 10_state.md R22: V is written by reset (no value), INIT (the seed) and the block step (the third
cipher output), and by nothing else. -/
def Obligations.SeedWriters : Prop :=
  ∀ (E : Cipher) (s t : State), stepWith E s = .next t →
    t.v = s.v ∨ (s.pins.rst = true ∧ t.v = none) ∨
      (∃ c, s.Accepts c ∧ c.op = 0b0001#4 ∧ t.v = some c.seed) ∨
      (s.blockEnabled = true ∧ s.pins.cphAnswer = true ∧
        ∃ k v, s.k = some k ∧ s.v = some v ∧ t.v = some (nb E k v s.dt).seed)
end

