-- ==== Sys2Proof/Laws/PerInstr.lean ====
section
/-! SUPPORT. The family TableRow: every command's encoding against the rows of spec/opcode_table.json. -/

namespace Sys2Proof.Laws.TableRow

/-- The table's rows, mask and match value, in its order. -/
def rows : List (BitVec 4 × BitVec 4) :=
  [(0xF, 0x0), (0xF, 0x1), (0xF, 0x2), (0xF, 0x3), (0xF, 0x4), (0xF, 0x5), (0xE, 0x6), (0x8, 0x8)]

/-- The rows an opcode lies in. -/
def rowsOf (op : BitVec 4) : List (BitVec 4 × BitVec 4) := rows.filter (fun r => op &&& r.1 = r.2)

/-- The command's own row. -/
def row : Instr → BitVec 4 × BitVec 4
  | .reserved0 => (0xF, 0x0)
  | .init _ _ => (0xF, 0x1)
  | .loadDt _ => (0xF, 0x2)
  | .nextBlock => (0xF, 0x3)
  | .generate _ => (0xF, 0x4)
  | .reserved5 => (0xF, 0x5)
  | .reserved67 _ => (0xE, 0x6)
  | .reserved8F _ => (0x8, 0x8)

/-- The encoded opcode lies in the command's own row of the table and in no other. -/
def Statement (i : Instr) : Prop := rowsOf (encode i).op = [row i]

theorem reserved0 : Statement .reserved0 := show rowsOf 0x0 = [(0xF, 0x0)] by decide

theorem init (key seed : Bits128) : Statement (.init key seed) :=
  show rowsOf 0x1 = [(0xF, 0x1)] by decide

theorem loadDt (dt : Bits128) : Statement (.loadDt dt) := show rowsOf 0x2 = [(0xF, 0x2)] by decide

theorem nextBlock : Statement .nextBlock := show rowsOf 0x3 = [(0xF, 0x3)] by decide

theorem generate (size : Nat) : Statement (.generate size) :=
  show rowsOf 0x4 = [(0xF, 0x4)] by decide

theorem reserved5 : Statement .reserved5 := show rowsOf 0x5 = [(0xF, 0x5)] by decide

theorem reserved67 (bit : BitVec 1) : Statement (.reserved67 bit) := by
  show rowsOf (0b0110#4 ||| bit.setWidth 4) = [(0xE, 0x6)]
  revert bit
  decide

theorem reserved8F (low : BitVec 3) : Statement (.reserved8F low) := by
  show rowsOf (0b1000#4 ||| low.setWidth 4) = [(0x8, 0x8)]
  revert low
  decide

end Sys2Proof.Laws.TableRow
end

