-- ==== Sys2Proof/Laws/State.lean ====
section
/-! SUPPORT. Each named update of the state, field by field. -/

namespace Sys2Proof.Machine

@[simp] theorem State.respond_k (s : State) (r : Response) : (s.respond r).k = s.k := rfl
@[simp] theorem State.respond_v (s : State) (r : Response) : (s.respond r).v = s.v := rfl
@[simp] theorem State.respond_dt (s : State) (r : Response) : (s.respond r).dt = s.dt := rfl
@[simp] theorem State.respond_loaded (s : State) (r : Response) : (s.respond r).loaded = s.loaded := rfl
@[simp] theorem State.respond_phase (s : State) (r : Response) : (s.respond r).phase = s.phase := rfl
@[simp] theorem State.respond_rem (s : State) (r : Response) : (s.respond r).rem = s.rem := rfl
@[simp] theorem State.respond_outbuf (s : State) (r : Response) : (s.respond r).outbuf = s.outbuf := rfl
@[simp] theorem State.respond_resp (s : State) (r : Response) : (s.respond r).resp = some r := rfl
@[simp] theorem State.respond_calls (s : State) (r : Response) : (s.respond r).calls = s.calls := rfl
@[simp] theorem State.respond_beats (s : State) (r : Response) : (s.respond r).beats = s.beats := rfl
@[simp] theorem State.respond_responses (s : State) (r : Response) : (s.respond r).responses = s.responses := rfl
@[simp] theorem State.respond_pending (s : State) (r : Response) : (s.respond r).pending = s.pending := rfl
@[simp] theorem State.respond_env (s : State) (r : Response) : (s.respond r).env = s.env := rfl

@[simp] theorem State.reject_k (s : State) (r : Response) : (s.reject r).k = s.k := rfl
@[simp] theorem State.reject_v (s : State) (r : Response) : (s.reject r).v = s.v := rfl
@[simp] theorem State.reject_dt (s : State) (r : Response) : (s.reject r).dt = s.dt := rfl
@[simp] theorem State.reject_loaded (s : State) (r : Response) : (s.reject r).loaded = s.loaded := rfl
@[simp] theorem State.reject_phase (s : State) (r : Response) : (s.reject r).phase = s.phase := rfl
@[simp] theorem State.reject_rem (s : State) (r : Response) : (s.reject r).rem = s.rem := rfl
@[simp] theorem State.reject_outbuf (s : State) (r : Response) : (s.reject r).outbuf = s.outbuf := rfl
@[simp] theorem State.reject_resp (s : State) (r : Response) : (s.reject r).resp = some r := rfl
@[simp] theorem State.reject_calls (s : State) (r : Response) : (s.reject r).calls = s.calls := rfl
@[simp] theorem State.reject_beats (s : State) (r : Response) : (s.reject r).beats = s.beats := rfl
@[simp] theorem State.reject_responses (s : State) (r : Response) : (s.reject r).responses = s.responses := rfl
@[simp] theorem State.reject_pending (s : State) (r : Response) : (s.reject r).pending = s.pending := rfl
@[simp] theorem State.reject_env (s : State) (r : Response) : (s.reject r).env = s.env := rfl

@[simp] theorem State.startStream_k (s : State) (n : Nat) : (s.startStream n).k = s.k := rfl
@[simp] theorem State.startStream_v (s : State) (n : Nat) : (s.startStream n).v = s.v := rfl
@[simp] theorem State.startStream_dt (s : State) (n : Nat) : (s.startStream n).dt = s.dt := rfl
@[simp] theorem State.startStream_loaded (s : State) (n : Nat) : (s.startStream n).loaded = s.loaded := rfl
@[simp] theorem State.startStream_phase (s : State) (n : Nat) : (s.startStream n).phase = .stream := rfl
@[simp] theorem State.startStream_rem (s : State) (n : Nat) : (s.startStream n).rem = n := rfl
@[simp] theorem State.startStream_outbuf (s : State) (n : Nat) : (s.startStream n).outbuf = s.outbuf := rfl
@[simp] theorem State.startStream_resp (s : State) (n : Nat) : (s.startStream n).resp = s.resp := rfl
@[simp] theorem State.startStream_calls (s : State) (n : Nat) : (s.startStream n).calls = s.calls := rfl
@[simp] theorem State.startStream_beats (s : State) (n : Nat) : (s.startStream n).beats = s.beats := rfl
@[simp] theorem State.startStream_responses (s : State) (n : Nat) : (s.startStream n).responses = s.responses := rfl
@[simp] theorem State.startStream_pending (s : State) (n : Nat) : (s.startStream n).pending = s.pending := rfl
@[simp] theorem State.startStream_env (s : State) (n : Nat) : (s.startStream n).env = s.env := rfl

@[simp] theorem State.emitBeat_k (s : State) (b : Beat) : (s.emitBeat b).k = s.k := rfl
@[simp] theorem State.emitBeat_v (s : State) (b : Beat) : (s.emitBeat b).v = s.v := rfl
@[simp] theorem State.emitBeat_dt (s : State) (b : Beat) : (s.emitBeat b).dt = s.dt := rfl
@[simp] theorem State.emitBeat_loaded (s : State) (b : Beat) : (s.emitBeat b).loaded = s.loaded := rfl
@[simp] theorem State.emitBeat_phase (s : State) (b : Beat) : (s.emitBeat b).phase = s.phase := rfl
@[simp] theorem State.emitBeat_rem (s : State) (b : Beat) : (s.emitBeat b).rem = s.rem := rfl
@[simp] theorem State.emitBeat_outbuf (s : State) (b : Beat) : (s.emitBeat b).outbuf = some b := rfl
@[simp] theorem State.emitBeat_resp (s : State) (b : Beat) : (s.emitBeat b).resp = s.resp := rfl
@[simp] theorem State.emitBeat_calls (s : State) (b : Beat) : (s.emitBeat b).calls = s.calls := rfl
@[simp] theorem State.emitBeat_beats (s : State) (b : Beat) : (s.emitBeat b).beats = s.beats := rfl
@[simp] theorem State.emitBeat_responses (s : State) (b : Beat) : (s.emitBeat b).responses = s.responses := rfl
@[simp] theorem State.emitBeat_pending (s : State) (b : Beat) : (s.emitBeat b).pending = s.pending := rfl
@[simp] theorem State.emitBeat_env (s : State) (b : Beat) : (s.emitBeat b).env = s.env := rfl

@[simp] theorem State.recordCalls_k (s : State) (cs : List CipherCall) : (s.recordCalls cs).k = s.k := rfl
@[simp] theorem State.recordCalls_v (s : State) (cs : List CipherCall) : (s.recordCalls cs).v = s.v := rfl
@[simp] theorem State.recordCalls_dt (s : State) (cs : List CipherCall) : (s.recordCalls cs).dt = s.dt := rfl
@[simp] theorem State.recordCalls_loaded (s : State) (cs : List CipherCall) : (s.recordCalls cs).loaded = s.loaded := rfl
@[simp] theorem State.recordCalls_phase (s : State) (cs : List CipherCall) : (s.recordCalls cs).phase = s.phase := rfl
@[simp] theorem State.recordCalls_rem (s : State) (cs : List CipherCall) : (s.recordCalls cs).rem = s.rem := rfl
@[simp] theorem State.recordCalls_outbuf (s : State) (cs : List CipherCall) : (s.recordCalls cs).outbuf = s.outbuf := rfl
@[simp] theorem State.recordCalls_resp (s : State) (cs : List CipherCall) : (s.recordCalls cs).resp = s.resp := rfl
@[simp] theorem State.recordCalls_calls (s : State) (cs : List CipherCall) : (s.recordCalls cs).calls = s.calls ++ cs := rfl
@[simp] theorem State.recordCalls_beats (s : State) (cs : List CipherCall) : (s.recordCalls cs).beats = s.beats := rfl
@[simp] theorem State.recordCalls_responses (s : State) (cs : List CipherCall) : (s.recordCalls cs).responses = s.responses := rfl
@[simp] theorem State.recordCalls_pending (s : State) (cs : List CipherCall) : (s.recordCalls cs).pending = s.pending := rfl
@[simp] theorem State.recordCalls_env (s : State) (cs : List CipherCall) : (s.recordCalls cs).env = s.env := rfl

@[simp] theorem State.acceptResponse_k (s : State) (r : Response) : (s.acceptResponse r).k = s.k := rfl
@[simp] theorem State.acceptResponse_v (s : State) (r : Response) : (s.acceptResponse r).v = s.v := rfl
@[simp] theorem State.acceptResponse_dt (s : State) (r : Response) : (s.acceptResponse r).dt = s.dt := rfl
@[simp] theorem State.acceptResponse_loaded (s : State) (r : Response) : (s.acceptResponse r).loaded = s.loaded := rfl
@[simp] theorem State.acceptResponse_phase (s : State) (r : Response) : (s.acceptResponse r).phase = s.phase := rfl
@[simp] theorem State.acceptResponse_rem (s : State) (r : Response) : (s.acceptResponse r).rem = s.rem := rfl
@[simp] theorem State.acceptResponse_outbuf (s : State) (r : Response) : (s.acceptResponse r).outbuf = s.outbuf := rfl
@[simp] theorem State.acceptResponse_resp (s : State) (r : Response) : (s.acceptResponse r).resp = none := rfl
@[simp] theorem State.acceptResponse_calls (s : State) (r : Response) : (s.acceptResponse r).calls = s.calls := rfl
@[simp] theorem State.acceptResponse_beats (s : State) (r : Response) : (s.acceptResponse r).beats = s.beats := rfl
@[simp] theorem State.acceptResponse_responses (s : State) (r : Response) : (s.acceptResponse r).responses = s.responses ++ [r] := rfl
@[simp] theorem State.acceptResponse_pending (s : State) (r : Response) : (s.acceptResponse r).pending = s.pending := rfl
@[simp] theorem State.acceptResponse_env (s : State) (r : Response) : (s.acceptResponse r).env = s.env := rfl

@[simp] theorem State.applyReset_k (s : State) : (s.applyReset).k = none := rfl
@[simp] theorem State.applyReset_v (s : State) : (s.applyReset).v = none := rfl
@[simp] theorem State.applyReset_dt (s : State) : (s.applyReset).dt = 0 := rfl
@[simp] theorem State.applyReset_loaded (s : State) : (s.applyReset).loaded = false := rfl
@[simp] theorem State.applyReset_phase (s : State) : (s.applyReset).phase = .idle := rfl
@[simp] theorem State.applyReset_rem (s : State) : (s.applyReset).rem = 0 := rfl
@[simp] theorem State.applyReset_outbuf (s : State) : (s.applyReset).outbuf = none := rfl
@[simp] theorem State.applyReset_resp (s : State) : (s.applyReset).resp = none := rfl
@[simp] theorem State.applyReset_calls (s : State) : (s.applyReset).calls = s.calls := rfl
@[simp] theorem State.applyReset_beats (s : State) : (s.applyReset).beats = s.beats := rfl
@[simp] theorem State.applyReset_responses (s : State) : (s.applyReset).responses = s.responses := rfl
@[simp] theorem State.applyReset_pending (s : State) : (s.applyReset).pending = none := rfl
@[simp] theorem State.applyReset_env (s : State) : (s.applyReset).env = s.env := rfl

@[simp] theorem State.advance_k (s : State) : (s.advance).k = s.k := rfl
@[simp] theorem State.advance_v (s : State) : (s.advance).v = s.v := rfl
@[simp] theorem State.advance_dt (s : State) : (s.advance).dt = s.dt := rfl
@[simp] theorem State.advance_loaded (s : State) : (s.advance).loaded = s.loaded := rfl
@[simp] theorem State.advance_phase (s : State) : (s.advance).phase = s.phase := rfl
@[simp] theorem State.advance_rem (s : State) : (s.advance).rem = s.rem := rfl
@[simp] theorem State.advance_outbuf (s : State) : (s.advance).outbuf = s.outbuf := rfl
@[simp] theorem State.advance_resp (s : State) : (s.advance).resp = s.resp := rfl
@[simp] theorem State.advance_calls (s : State) : (s.advance).calls = s.calls := rfl
@[simp] theorem State.advance_beats (s : State) : (s.advance).beats = s.beats := rfl
@[simp] theorem State.advance_responses (s : State) : (s.advance).responses = s.responses := rfl
@[simp] theorem State.advance_pending (s : State) : (s.advance).pending = s.pending := rfl
@[simp] theorem State.advance_env (s : State) : (s.advance).env = s.env.tail := rfl

@[simp] theorem State.setPending_k (s : State) (c : Option Command) : (s.setPending c).k = s.k := rfl
@[simp] theorem State.setPending_v (s : State) (c : Option Command) : (s.setPending c).v = s.v := rfl
@[simp] theorem State.setPending_dt (s : State) (c : Option Command) : (s.setPending c).dt = s.dt := rfl
@[simp] theorem State.setPending_loaded (s : State) (c : Option Command) : (s.setPending c).loaded = s.loaded := rfl
@[simp] theorem State.setPending_phase (s : State) (c : Option Command) : (s.setPending c).phase = s.phase := rfl
@[simp] theorem State.setPending_rem (s : State) (c : Option Command) : (s.setPending c).rem = s.rem := rfl
@[simp] theorem State.setPending_outbuf (s : State) (c : Option Command) : (s.setPending c).outbuf = s.outbuf := rfl
@[simp] theorem State.setPending_resp (s : State) (c : Option Command) : (s.setPending c).resp = s.resp := rfl
@[simp] theorem State.setPending_calls (s : State) (c : Option Command) : (s.setPending c).calls = s.calls := rfl
@[simp] theorem State.setPending_beats (s : State) (c : Option Command) : (s.setPending c).beats = s.beats := rfl
@[simp] theorem State.setPending_responses (s : State) (c : Option Command) : (s.setPending c).responses = s.responses := rfl
@[simp] theorem State.setPending_pending (s : State) (c : Option Command) : (s.setPending c).pending = c := rfl
@[simp] theorem State.setPending_env (s : State) (c : Option Command) : (s.setPending c).env = s.env := rfl

@[simp] theorem State.offerNext_k (s : State) (c : Command) : (s.offerNext c).k = s.k := rfl
@[simp] theorem State.offerNext_v (s : State) (c : Command) : (s.offerNext c).v = s.v := rfl
@[simp] theorem State.offerNext_dt (s : State) (c : Command) : (s.offerNext c).dt = s.dt := rfl
@[simp] theorem State.offerNext_loaded (s : State) (c : Command) : (s.offerNext c).loaded = s.loaded := rfl
@[simp] theorem State.offerNext_phase (s : State) (c : Command) : (s.offerNext c).phase = s.phase := rfl
@[simp] theorem State.offerNext_rem (s : State) (c : Command) : (s.offerNext c).rem = s.rem := rfl
@[simp] theorem State.offerNext_outbuf (s : State) (c : Command) : (s.offerNext c).outbuf = s.outbuf := rfl
@[simp] theorem State.offerNext_resp (s : State) (c : Command) : (s.offerNext c).resp = s.resp := rfl
@[simp] theorem State.offerNext_calls (s : State) (c : Command) : (s.offerNext c).calls = s.calls := rfl
@[simp] theorem State.offerNext_beats (s : State) (c : Command) : (s.offerNext c).beats = s.beats := rfl
@[simp] theorem State.offerNext_responses (s : State) (c : Command) : (s.offerNext c).responses = s.responses := rfl
@[simp] theorem State.offerNext_pending (s : State) (c : Command) : (s.offerNext c).pending = none := rfl
@[simp] theorem State.offerNext_env (s : State) (c : Command) : (s.offerNext c).env = { s.pins with rst := false, cmd := some c } :: s.env.tail := rfl

@[simp] theorem State.commitBlock_k (s : State) (b : Block) : (s.commitBlock b).k = s.k := rfl
@[simp] theorem State.commitBlock_v (s : State) (b : Block) : (s.commitBlock b).v = some b.seed := rfl
@[simp] theorem State.commitBlock_dt (s : State) (b : Block) : (s.commitBlock b).dt = b.dt := rfl
@[simp] theorem State.commitBlock_loaded (s : State) (b : Block) : (s.commitBlock b).loaded = s.loaded := rfl
@[simp] theorem State.commitBlock_phase (s : State) (b : Block) : (s.commitBlock b).phase = s.phase := rfl
@[simp] theorem State.commitBlock_rem (s : State) (b : Block) : (s.commitBlock b).rem = s.rem - s.keptBytes := rfl
@[simp] theorem State.commitBlock_outbuf (s : State) (b : Block) : (s.commitBlock b).outbuf = some (s.nextBeat b.out) := rfl
@[simp] theorem State.commitBlock_resp (s : State) (b : Block) : (s.commitBlock b).resp = s.resp := rfl
@[simp] theorem State.commitBlock_calls (s : State) (b : Block) : (s.commitBlock b).calls = s.calls := rfl
@[simp] theorem State.commitBlock_beats (s : State) (b : Block) : (s.commitBlock b).beats = s.beats := rfl
@[simp] theorem State.commitBlock_responses (s : State) (b : Block) : (s.commitBlock b).responses = s.responses := rfl
@[simp] theorem State.commitBlock_pending (s : State) (b : Block) : (s.commitBlock b).pending = s.pending := rfl
@[simp] theorem State.commitBlock_env (s : State) (b : Block) : (s.commitBlock b).env = s.env := rfl

@[simp] theorem State.acceptBeat_k (s : State) (b : Beat) : (s.acceptBeat b).k = s.k := by
  cases h : b.last <;> simp [State.acceptBeat, h]
@[simp] theorem State.acceptBeat_v (s : State) (b : Beat) : (s.acceptBeat b).v = s.v := by
  cases h : b.last <;> simp [State.acceptBeat, h]
@[simp] theorem State.acceptBeat_dt (s : State) (b : Beat) : (s.acceptBeat b).dt = s.dt := by
  cases h : b.last <;> simp [State.acceptBeat, h]
@[simp] theorem State.acceptBeat_loaded (s : State) (b : Beat) : (s.acceptBeat b).loaded = s.loaded := by
  cases h : b.last <;> simp [State.acceptBeat, h]
@[simp] theorem State.acceptBeat_phase (s : State) (b : Beat) : (s.acceptBeat b).phase = if b.last then .idle else s.phase := by
  cases h : b.last <;> simp [State.acceptBeat, h]
@[simp] theorem State.acceptBeat_rem (s : State) (b : Beat) : (s.acceptBeat b).rem = s.rem := by
  cases h : b.last <;> simp [State.acceptBeat, h]
@[simp] theorem State.acceptBeat_outbuf (s : State) (b : Beat) : (s.acceptBeat b).outbuf = none := by
  cases h : b.last <;> simp [State.acceptBeat, h]
@[simp] theorem State.acceptBeat_resp (s : State) (b : Beat) : (s.acceptBeat b).resp = if b.last then some .ok else s.resp := by
  cases h : b.last <;> simp [State.acceptBeat, h]
@[simp] theorem State.acceptBeat_calls (s : State) (b : Beat) : (s.acceptBeat b).calls = s.calls := by
  cases h : b.last <;> simp [State.acceptBeat, h]
@[simp] theorem State.acceptBeat_beats (s : State) (b : Beat) : (s.acceptBeat b).beats = s.beats ++ [b] := by
  cases h : b.last <;> simp [State.acceptBeat, h]
@[simp] theorem State.acceptBeat_responses (s : State) (b : Beat) : (s.acceptBeat b).responses = s.responses := by
  cases h : b.last <;> simp [State.acceptBeat, h]
@[simp] theorem State.acceptBeat_pending (s : State) (b : Beat) : (s.acceptBeat b).pending = s.pending := by
  cases h : b.last <;> simp [State.acceptBeat, h]
@[simp] theorem State.acceptBeat_env (s : State) (b : Beat) : (s.acceptBeat b).env = s.env := by
  cases h : b.last <;> simp [State.acceptBeat, h]

end Sys2Proof.Machine
end

