-- ==== Sys2Proof/Laws/Step.lean ====
section
/-! SUPPORT. What each shared operation and each kind of step can do, said once. -/

namespace Sys2Proof.Machine

@[simp] theorem State.pins_advance_tail (s : State) : s.advance.env = s.env.tail := rfl

/-- A state whose environment's next pins are `p`. -/
theorem State.pins_cons (s : State) (p : Pins) (ps : List Pins) (h : s.env = p :: ps) : s.pins = p := by
  simp [State.pins, h]

theorem State.busy_eq_false_iff (s : State) : s.busy = false ↔ s.phase = .idle ∧ s.resp = none := by
  cases h : s.phase <;> cases h' : s.resp <;> simp [State.busy, h, h']

theorem State.blockEnabled_iff (s : State) :
    s.blockEnabled = true ↔ s.phase = .stream ∧ s.outbuf = none ∧ 0 < s.rem := by
  simp [State.blockEnabled, and_assoc]

/-- A block step of a generator that holds its key and seed. -/
theorem blockStepWith_some (E : Cipher) (s : State) (k v : Bits128) (hk : s.k = some k)
    (hv : s.v = some v) :
    blockStepWith E s = .next ((s.commitBlock (nb E k v s.dt)).recordCalls (nbCalls E k v s.dt)) := by
  simp [blockStepWith, hk, hv]

/-- A block step goes on only if key and seed are held, and then commits one block. -/
theorem blockStepWith_next (E : Cipher) (s t : State) (h : blockStepWith E s = .next t) :
    ∃ k v, s.k = some k ∧ s.v = some v ∧
      t = (s.commitBlock (nb E k v s.dt)).recordCalls (nbCalls E k v s.dt) := by
  unfold blockStepWith at h
  split at h
  · cases h
  · cases h
  · next k v hk hv => exact ⟨k, v, hk, hv, by cases h; rfl⟩

/-- What a step while BUSY = 1 can do. -/
theorem busyStepWith_next (E : Cipher) (p : Pins) (s t : State) (h : busyStepWith E p s = .next t) :
    (∃ b, s.outbuf = some b ∧ p.outReady = true ∧ t = s.acceptBeat b) ∨
    (s.blockEnabled = true ∧ p.cphAnswer = true ∧ blockStepWith E s = .next t) ∨
    (∃ r, s.outbuf = none ∧ s.blockEnabled = false ∧ s.resp = some r ∧ p.rspReady = true ∧
      t = s.acceptResponse r) ∨
    t = s := by
  unfold busyStepWith at h
  split at h
  · next b hb =>
    split at h
    · next hr => exact .inl ⟨b, hb, hr, by cases h; rfl⟩
    · exact .inr (.inr (.inr (by cases h; rfl)))
  · next ho =>
    split at h
    · next he =>
      split at h
      · next ha => exact .inr (.inl ⟨he, ha, h⟩)
      · exact .inr (.inr (.inr (by cases h; rfl)))
    · next he =>
      split at h
      · next r hr =>
        split at h
        · next hq => exact .inr (.inr (.inl ⟨r, ho, by simpa using he, hr, hq, by cases h; rfl⟩))
        · exact .inr (.inr (.inr (by cases h; rfl)))
      · exact .inr (.inr (.inr (by cases h; rfl)))

/-- Every command is executed to a next state: a rejection is an effect, not a stop (60_exceptions.md
R123, R127). -/
theorem exec_answers (i : Instr) (s : State) : ∃ t, exec i s = .next t := by
  cases i <;> simp only [exec, execInit, execLoadDt, execNextBlock, execGenerate, execReserved0,
    execReserved5, execReserved67, execReserved8F, rejectIllegalOp] <;> (repeat' split) <;>
    exact ⟨_, rfl⟩

/-- What the step that accepts a command can do, whichever command it is: construct, load the counter,
start a stream, or respond. -/
theorem exec_cases (i : Instr) (s t : State) (h : exec i s = .next t) :
    (∃ key seed, i = .init key seed ∧
      t = { s with k := some key, v := some seed, dt := 0, loaded := true, resp := some .ok }) ∨
    (∃ dt, i = .loadDt dt ∧ t = { s with dt := dt, resp := some .ok }) ∨
    (∃ n, 0 < n ∧ s.loaded = true ∧ (i = .nextBlock ∧ n = 16 ∨ i = .generate n) ∧
      t = { s with phase := .stream, rem := n }) ∨
    (∃ r, t = { s with resp := some r } ∧ (r = .ok → i = .generate 0 ∧ s.loaded = true) ∧
      (r = .notLoaded → s.loaded = false)) := by
  have hres : ∀ u, rejectIllegalOp s = .next u → u = { s with resp := some .illegalOp } :=
    fun u hu => by cases hu; rfl
  cases i with
  | reserved0 => exact .inr (.inr (.inr ⟨_, hres t h, by simp, by simp⟩))
  | reserved5 => exact .inr (.inr (.inr ⟨_, hres t h, by simp, by simp⟩))
  | reserved67 b => exact .inr (.inr (.inr ⟨_, hres t h, by simp, by simp⟩))
  | reserved8F l => exact .inr (.inr (.inr ⟨_, hres t h, by simp, by simp⟩))
  | init key seed => exact .inl ⟨key, seed, rfl, by cases h; rfl⟩
  | loadDt dt => exact .inr (.inl ⟨dt, rfl, by cases h; rfl⟩)
  | nextBlock =>
    simp only [exec, execNextBlock] at h
    split at h
    · next hl => exact .inr (.inr (.inl ⟨16, by decide, hl, .inl ⟨rfl, rfl⟩, by cases h; rfl⟩))
    · next hl => exact .inr (.inr (.inr ⟨.notLoaded, by cases h; rfl, by simp, by simpa using hl⟩))
  | generate n =>
    simp only [exec, execGenerate] at h
    split at h
    · next hl =>
      split at h
      · next hn =>
        exact .inr (.inr (.inr ⟨.ok, by cases h; rfl, fun _ => ⟨by rw [hn], hl⟩, by simp⟩))
      · next hn =>
        exact .inr (.inr (.inl ⟨n, Nat.pos_of_ne_zero hn, hl, .inr rfl, by cases h; rfl⟩))
    · next hl => exact .inr (.inr (.inr ⟨.notLoaded, by cases h; rfl, by simp, by simpa using hl⟩))

/-- Everything a step that goes on can be (20_memory.md R49): reset, the acceptance of a command, a
step while BUSY = 1, or a step of an idle block that is offered nothing. -/
theorem stepWith_next (E : Cipher) (s t : State) (h : stepWith E s = .next t) :
    (s.pins.rst = true ∧ t = s.advance.applyReset) ∨
    (s.pins.rst = false ∧ s.holds s.pins.cmd = true ∧
      ((∃ c, s.busy = false ∧ s.pins.cmd = some c ∧
          exec (decode c) (s.advance.setPending none) = .next t) ∨
        (s.busy = false ∧ s.pins.cmd = none ∧ t = s.advance.setPending none) ∨
        (s.busy = true ∧
          busyStepWith E s.pins (s.advance.setPending s.pins.cmd) = .next t))) := by
  unfold stepWith at h
  split at h
  · next hr => exact .inl ⟨hr, by cases h; rfl⟩
  · next hr =>
    split at h
    · next hh =>
      refine .inr ⟨by simpa using hr, hh, ?_⟩
      split at h
      · next hb => exact .inr (.inr ⟨hb, h⟩)
      · next hb =>
        cases hc : s.pins.cmd with
        | none =>
          rw [hc] at h
          exact .inr (.inl ⟨by simpa using hb, rfl, by cases h; rfl⟩)
        | some c =>
          rw [hc] at h
          exact .inl ⟨c, by simpa using hb, rfl, h⟩
    · cases h

/-- A step that takes no reset and whose host holds its command is one of the two controller steps. -/
theorem stepWith_of_held (E : Cipher) (s : State) (hr : s.pins.rst = false)
    (hh : s.holds s.pins.cmd = true) :
    stepWith E s =
      if s.busy then busyStepWith E s.pins (s.advance.setPending s.pins.cmd)
      else acceptStep s.pins.cmd (s.advance.setPending none) := by
  simp [stepWith, hr, hh]

/-- The host breaks its duty to hold an offered command exactly by offering another (R145). -/
theorem State.holds_eq_false_iff (s : State) (o : Option Command) :
    s.holds o = false ↔ ∃ c c', s.pending = some c ∧ o = some c' ∧ decode c ≠ decode c' := by
  cases h : s.pending <;> cases o <;> simp [State.holds, h]

theorem step_eq_stepWith (s : State) : step s = stepWith Config.encrypt s := rfl

end Sys2Proof.Machine
end

