-- ==== Sys2Proof/Tests/Aes128.lean ====
section
/-! SUPPORT. The spec's second test cipher, AES-128 (41_block_generator.md R98), and its vectors of
spec/95_test_vectors.md. AES-128 is general knowledge (93_implementation_defined.md G1), and no part of
the block. -/

namespace Sys2Proof.Tests

open Sys2Proof Sys2Proof.Machine

/-- The S-box of AES, sixteen bytes to a row. -/
def sboxRows : List Nat :=
  [0x637c777bf26b6fc53001672bfed7ab76, 0xca82c97dfa5947f0add4a2af9ca472c0,
    0xb7fd9326363ff7cc34a5e5f171d83115, 0x04c723c31896059a071280e2eb27b275,
    0x09832c1a1b6e5aa0523bd6b329e32f84, 0x53d100ed20fcb15b6acbbe394a4c58cf,
    0xd0efaafb434d338545f9027f503c9fa8, 0x51a3408f929d38f5bcb6da2110fff3d2,
    0xcd0c13ec5f974417c4a77e3d645d1973, 0x60814fdc222a908846eeb814de5e0bdb,
    0xe0323a0a4906245cc2d3ac629195e479, 0xe7c8376d8dd54ea96c56f4ea657aae08,
    0xba78252e1ca6b4c6e8dd741f4bbd8b8a, 0x703eb5664803f60e613557b986c11d9e,
    0xe1f8981169d98e949b1e87e9ce5528df, 0x8ca1890dbfe6426841992d0fb054bb16]

/-- Byte `i` of sixteen bytes written as one number, byte 0 first. -/
def natByte (w i : Nat) : Nat := (w >>> (8 * (15 - i))) &&& 0xff

/-- SubBytes on one byte. -/
def subByte (b : Nat) : Nat := natByte (sboxRows.getD (b >>> 4) 0) (b &&& 0xf)

/-- Sixteen bytes as one number, byte 0 first. -/
def joinBytes (bs : List Nat) : Nat := bs.foldl (fun w b => w <<< 8 ||| b) 0

/-- Multiplication by 2 in the field of AES. -/
def xtime (b : Nat) : Nat := ((b <<< 1) &&& 0xff) ^^^ (if b < 128 then 0 else 0x1b)

/-- SubBytes and ShiftRows: byte `i` of the result comes from byte `5 i mod 16`. -/
def subShift (w : Nat) : Nat :=
  joinBytes ((List.range 16).map (fun i => subByte (natByte w (5 * i % 16))))

/-- MixColumns: byte `i` of the result from its own column, next bytes first. -/
def mixColumns (w : Nat) : Nat :=
  joinBytes ((List.range 16).map (fun i =>
    let a := fun j => natByte w (i / 4 * 4 + (i + j) % 4)
    xtime (a 0) ^^^ xtime (a 1) ^^^ a 1 ^^^ a 2 ^^^ a 3))

/-- The next round key, with round constant `rc`. -/
def nextKey (key rc : Nat) : Nat :=
  let t := joinBytes ([13, 14, 15, 12].map (fun i => subByte (natByte key i))) ^^^ (rc <<< 24)
  let w0 := (key >>> 96) ^^^ t
  let w1 := ((key >>> 64) &&& 0xffffffff) ^^^ w0
  let w2 := ((key >>> 32) &&& 0xffffffff) ^^^ w1
  let w3 := (key &&& 0xffffffff) ^^^ w2
  w0 <<< 96 ||| w1 <<< 64 ||| w2 <<< 32 ||| w3

/-- The rounds after the first key addition; the last has no MixColumns. -/
def aesRounds : Nat → Nat → Nat → Nat → Nat
  | 0, _, _, w => w
  | n + 1, key, rc, w =>
    let k := nextKey key rc
    let u := subShift w
    aesRounds n k (xtime rc) ((if n = 0 then u else mixColumns u) ^^^ k)

/-- AES-128 on one block, bytes mapped to words by 20_memory.md R41. -/
def aes128 : Cipher := fun k x =>
  BitVec.ofNat 128 (aesRounds 10 k.toNat 1 (x.toNat ^^^ k.toNat))

/-- The FIPS-197 example R98 quotes. -/
theorem test_aes128_fips :
    aes128 0x000102030405060708090a0b0c0d0e0f 0x00112233445566778899aabbccddeeff =
      0x69c4e0d86a7b0430d8cdb78070b4c55a := by decide +kernel

theorem test_v1_aes128 :
    nb aes128 0 0 0 =
      ⟨0xf795bd4a52e29ed713d313fa20e98dbc, 0x10a582ed9bd15dbe6a6ee4b158d5790e, 1⟩ := by
  decide +kernel

end Sys2Proof.Tests
end

