-- ==== Sys2Proof/Tests/Listing.lean ====
section
/-! SUPPORT. Lines of listings read and written (30_encoding.md R65, R69), as spec/95_test_vectors.md
writes them. -/

namespace Sys2Proof.Tests

open Sys2Proof Sys2Proof.Machine

theorem test_read_lines :
    Line.read "INIT key=0x01020304050607080900010203040506, seed=0x09080706050403020100090807060504 ; x" =
        some (.init 0x01020304050607080900010203040506 0x09080706050403020100090807060504) ∧
      Line.read "  Generate   20" = some (.generate 20) ∧
      Line.read ".cmd 0xF" = some (.cmd 15) ∧
      Line.read "LOAD_DT 0x05" = none := by decide +kernel

theorem test_listed_commands :
    listed (.init 0x01020304050607080900010203040506 0x09080706050403020100090807060504) =
        "op=0001 key=0x01020304050607080900010203040506 seed=0x09080706050403020100090807060504 | INIT key=0x01020304050607080900010203040506, seed=0x09080706050403020100090807060504" ∧
      listed (.generate 12) = "op=0100 size=0x0c | GENERATE 12" ∧
      listed (.reserved8F 7) = "op=1111 | .cmd 0xF" ∧
      listed .nextBlock = "op=0011 | NEXT_BLOCK" := by decide +kernel

theorem test_read_assembly :
    Line.read (assembly (.loadDt 0xffffffffffffffffffffffffffffffff)) =
      some (.loadDt 0xffffffffffffffffffffffffffffffff) := by decide +kernel

end Sys2Proof.Tests
end

