-- ==== Sys2Proof/Tests/Slice0.lean ====
section
/-! SUPPORT. Tests of single steps against spec/95_test_vectors.md (the TOY columns, which the spec's
rules give by hand), and for each statement with hypotheses a state and operands that meet them. -/

namespace Sys2Proof.Tests

open Sys2Proof Sys2Proof.Machine

/-- `n` bytes written as one hexadecimal number, byte 0 first. -/
def hexBytes (n w : Nat) : List Byte := (List.range n).map (fun i => BitVec.ofNat 8 (w >>> (8 * (n - 1 - i))))

/-- The state just after `INIT key=0, seed=0` whose response was accepted, with these pins next. -/
def ready (env : List Pins) : State :=
  { State.reset with k := some 0, v := some 0, loaded := true, env := env }

/-- A stream in progress from the INIT state that still owes `n` bytes, with these pins next. -/
def streaming (n : Nat) (env : List Pins) : State := { ready env with phase := .stream, rem := n }

/-- The first beat of the INIT state with cipher TOY (V1). -/
def beat1 (last : Bool) : Beat := ⟨2, 16, last⟩

/-- A stream with beat 1 waiting and `n` bytes owed past it (V13). -/
def waiting (n : Nat) (env : List Pins) : State :=
  { streaming n env with v := some 4, dt := 1, outbuf := some (beat1 (decide (n = 0))) }

/-! ### Well-formedness -/

theorem test_wellFormed_refuses_size : Instr.wellFormed 4 (.generate 16) = false := by decide
theorem test_wellFormed_accepts_size : Instr.wellFormed 4 (.generate 15) = true := by decide
theorem test_fits_refuses_size : (Command.fits 1 (encode (.generate 2))) = false := by decide
theorem test_line_refuses_blocks : Line.wellFormed 5 (.blocks 2) = false := by decide

/-! ### Decoding: words written out from R57 -/

theorem test_decode_all_opcodes :
    (List.range 16).map (fun w => decodeTableWord 8 w) =
      [some .reserved0, some (.init 0 0), some (.loadDt 0), some .nextBlock, some (.generate 0),
        some .reserved5, some (.reserved67 0), some (.reserved67 1), some (.reserved8F 0),
        some (.reserved8F 1), some (.reserved8F 2), some (.reserved8F 3), some (.reserved8F 4),
        some (.reserved8F 5), some (.reserved8F 6), some (.reserved8F 7)] := by decide

theorem test_decode_init_word :
    decode (Command.ofWord 0x09080706050403020100090807060504010203040506070809000102030405061) =
      .init 0x01020304050607080900010203040506 0x09080706050403020100090807060504 := by decide

theorem test_decode_ignores_unread :
    decode { op := 0b0001, key := 1, seed := 2, dt := 7, size := 5 } = .init 1 2 := by decide

theorem test_decode_generate_size :
    decode { op := 0b0100, key := 0, seed := 0, dt := 0, size := 0x14 } = .generate 20 := by decide

theorem test_decode_loadDt :
    decode { op := 0b0010, key := 0, seed := 0, dt := 0xffffffffffffffffffffffffffffffff, size := 0 } =
      .loadDt 0xffffffffffffffffffffffffffffffff := by decide

/-! ### The block function (V1, V2, V5, V6, V7; TOY) -/

theorem test_v1_block : nb Config.toy 0 0 0 = ⟨2, 4, 1⟩ := by decide
theorem test_v1_calls : nbCalls Config.toy 0 0 0 = [⟨0, 0⟩, ⟨0, 1⟩, ⟨0, 3⟩] := by decide
theorem test_v2_block : nb Config.toy 0 4 1 = ⟨7, 6, 2⟩ := by decide
theorem test_v5_wrap : nb Config.toy 0 0 0xffffffffffffffffffffffffffffffff = ⟨1, 2, 0⟩ := by decide
theorem test_v6_carry :
    nb Config.toy 0 0 0x0000000000000000ffffffffffffffff =
      ⟨0x00000000000000010000000000000001, 2, 0x00000000000000010000000000000000⟩ := by decide
theorem test_v7_coincident : nb Config.toy 0 1 0 = ⟨1, 1, 1⟩ := by decide

/-! ### Streams as functions (V3, V4, V8; TOY) -/

theorem test_v3_stream :
    gen Config.toy 0 0 0 20 = ⟨hexBytes 20 0x0000000000000000000000000000000200000000, 6, 2⟩ := by
  decide
theorem test_v8_stream :
    gen Config.toy 0x01020304050607080900010203040506 0x09080706050403020100090807060504 0 33 =
      ⟨hexBytes 33 0x090c070605080b121100090c0706050a0914070605181b32310009140706052309,
        0x09200706053433626100092007060552, 3⟩ := by decide

/-! ### Commands (V9, V10) -/

theorem test_v9_init :
    exec (.init 0 0) State.reset =
      .next { State.reset with k := some 0, v := some 0, loaded := true, resp := some .ok } := rfl
theorem test_v9_loadDt_unloaded :
    exec (.loadDt 5) State.reset = .next { State.reset with dt := 5, resp := some .ok } := rfl
theorem test_v10_generate_not_loaded :
    exec (.generate 0) State.reset = .next { State.reset with resp := some .notLoaded } := rfl
theorem test_v10_nextBlock_not_loaded :
    exec .nextBlock State.reset = .next { State.reset with resp := some .notLoaded } := rfl
theorem test_v10_reserved5 :
    exec .reserved5 State.reset = .next { State.reset with resp := some .illegalOp } := rfl
theorem test_v10_reserved0 :
    exec .reserved0 (ready []) = .next { ready [] with resp := some .illegalOp } := rfl
theorem test_v10_reserved8F :
    exec (.reserved8F 7) (ready []) = .next { ready [] with resp := some .illegalOp } := rfl
theorem test_v10_generate_zero :
    exec (.generate 0) (ready []) = .next { ready [] with resp := some .ok } := rfl
theorem test_nextBlock_starts :
    exec .nextBlock (ready []) = .next { ready [] with phase := .stream, rem := 16 } := rfl

/-! ### Steps (V1, V3, V12, V13; TOY) -/

theorem test_v3_first_block_step :
    stepWith Config.toy (streaming 20 [{ cphAnswer := true }]) =
      .next { waiting 4 [] with calls := [⟨0, 0⟩, ⟨0, 1⟩, ⟨0, 3⟩] } := rfl
theorem test_v8_short_beat :
    (streaming 1 []).nextBeat 0x091c070605282b525100091c07060542 =
      ⟨0x09000000000000000000000000000000, 1, true⟩ := by decide
theorem test_v12_reset :
    stepWith Config.toy (waiting 16 [{ rst := true, outReady := true }]) = .next State.reset := rfl
theorem test_v13_backpressure :
    stepWith Config.toy (waiting 32 [{ cphAnswer := true }]) = .next (waiting 32 []) := rfl
theorem test_v13_status : (waiting 32 []).status = 0x03 ∧ (waiting 32 []).dtO = 1 := by decide

/-! ### Witnesses: for each statement with hypotheses, a state and operands that meet them -/

/-- A command record all of whose operand fields are set. -/
def full (op : BitVec 4) : Command := { op := op, key := 3, seed := 4, dt := 5, size := 1 }

/-- The same but for the operands that opcode `op` does not read. -/
def unread (op : BitVec 4) : Command :=
  { op := op
    key := if op = 1 then 3 else 9
    seed := if op = 1 then 4 else 9
    dt := if op = 2 then 5 else 9
    size := if op = 4 then 1 else 9 }

/-- An idle loaded generator that is offered command `c` now and is then driven by these pins. -/
def offeredThen (c : Command) (env : List Pins) : State := ready ({ cmd := some c } :: env)

theorem witness_OpcodeMapDecodes :
    (∀ op : BitVec 4, (Command.bare op).op = op) ∧ 8 ≤ (Command.bare 8).op.toNat ∧
      8 ≤ (Command.bare 15).op.toNat ∧ State.reset.loaded = false := by decide

theorem witness_UnreadOperandsIgnored :
    (∀ op : BitVec 4,
      ((full op).op = 0b0001#4 → (full op).key = (unread op).key ∧ (full op).seed = (unread op).seed) ∧
      ((full op).op = 0b0010#4 → (full op).dt = (unread op).dt) ∧
      ((full op).op = 0b0100#4 → (full op).size = (unread op).size) ∧
      (full op).op = (unread op).op ∧ full op ≠ unread op) ∧
    State.reset.busy = false ∧ State.reset.pending = none := by decide

theorem witness_DecodeEncodeRoundTrip :
    Instr.wellFormed 1 (.generate 1) = true ∧ Instr.wellFormed 5 (.generate 31) = true ∧
      Instr.wellFormed 1 (.init 1 2) = true ∧ Instr.wellFormed 1 (.reserved8F 7) = true := by decide

/-- The environment in which SETUP 3, 4, 5 is offered and answered, at reset. -/
def setupState : State :=
  { State.reset with
    env := [{ cmd := some (encode (.init 3 4)) }, { rspReady := true },
      { cmd := some (encode (.loadDt 5)) }, { rspReady := true }] }

theorem witness_SetupBuildsInitialState :
    (Line.setup 3 4 5).assemble = [encode (.init 3 4), encode (.loadDt 5)] ∧ setupState.Inv ∧
      setupState.busy = false ∧ setupState.pending = none := by decide

theorem witness_InitConstructsGenerator :
    decode (Command.bare 1) = .init (Command.bare 1).key (Command.bare 1).seed ∧
      (Command.bare 1).op = 0b0001#4 ∧ State.reset.phase = .idle := by decide

theorem witness_LoadDtSetsCounter :
    (full 2).op = 0b0010#4 ∧ (full 2).dt = 5 ∧ State.reset.phase = .idle := by decide

theorem witness_NextBlockProducesOneBlock :
    (full 3).op = 0b0011#4 ∧ State.reset.loaded = false ∧ (ready []).loaded = true ∧ (ready []).k = some 0 ∧
      (ready []).v = some 0 := by decide

theorem witness_GenerateAtAcceptance :
    (ready []).loaded = true ∧ 0 < 1 ∧ State.reset.loaded = false := by decide

theorem witness_ReservedOpcodesReject :
    (full 0).op = 0 ∧ 5 ≤ (full 5).op.toNat ∧ 5 ≤ (full 15).op.toNat := by decide

theorem witness_NotLoadedRejects :
    State.reset.loaded = false ∧ State.reset.resp = none ∧
      (∃ t, exec (.generate 0) State.reset = .next t ∧ t.resp = some .notLoaded) ∧
      (ready []).resp = none ∧ ∃ t, exec .reserved5 (ready []) = .next t ∧ t.resp = some .illegalOp :=
  ⟨rfl, rfl, ⟨_, rfl, rfl⟩, rfl, _, rfl, rfl⟩

theorem witness_RejectionChangesOnlyResp :
    State.reset.resp = none ∧
      ∃ t, exec .nextBlock State.reset = .next t ∧ t.resp = some .notLoaded ∧
        Response.notLoaded ≠ .ok :=
  ⟨rfl, _, rfl, rfl, by decide⟩

theorem witness_CommandRespondsOrStreams : State.reset.busy = false ∧ (ready []).busy = false := by
  decide

theorem witness_StepRunsDecodedCommand :
    (offeredThen (full 1) []).Accepts (full 1) ∧ (offeredThen (full 15) []).Accepts (full 15) := by
  decide

theorem witness_PlacedWordRuns : State.reset.busy = false ∧ (waiting 4 []).busy = true := by decide

theorem witness_BusyCommandWaits :
    (waiting 4 [{ cmd := some (full 4) }]).busy = true ∧
      (waiting 4 [{ cmd := some (full 4) }]).holds (some (full 4)) = true ∧
      stepWith Config.toy { waiting 4 [{ cmd := none }] with pending := none } =
        .next (waiting 4 []) :=
  ⟨rfl, rfl, rfl⟩

/-- The hypotheses of `BlockStepAdvances` with `n` bytes owed. -/
abbrev blockStepWitness (n : Nat) : Prop :=
  (streaming n [{ cphAnswer := true }]).Undisturbed ∧
    (streaming n [{ cphAnswer := true }]).pins.cphAnswer = true ∧
    (streaming n [{ cphAnswer := true }]).phase = .stream ∧
    (streaming n [{ cphAnswer := true }]).outbuf = none ∧
    0 < (streaming n [{ cphAnswer := true }]).rem ∧
    (streaming n [{ cphAnswer := true }]).k = some 0 ∧
    (streaming n [{ cphAnswer := true }]).v = some 0

theorem witness_BlockStepAdvances :
    blockStepWitness 1 ∧ blockStepWitness 16 ∧ blockStepWitness 17 := by decide

theorem witness_BeatAcceptance :
    (waiting 0 [{ outReady := true }]).Undisturbed ∧ (waiting 0 [{ outReady := true }]).busy = true ∧
      (waiting 0 [{ outReady := true }]).outbuf = some (beat1 true) ∧
      (waiting 0 [{ outReady := true }]).pins.outReady = true ∧
      (waiting 1 [{ outReady := true }]).outbuf = some (beat1 false) ∧
      (waiting 1 []).Undisturbed ∧ (waiting 1 []).busy = true ∧ (waiting 1 []).pins.outReady = false := by
  decide

/-- A pending response that the host takes in the next step. -/
def answered : State := { ready [{ rspReady := true }] with resp := some .ok }

/-- The same while the host does not take it and offers a command. -/
def unanswered : State := { answered with env := [{ cmd := some (full 1) }] }

theorem witness_ResponseAcceptance :
    answered.Undisturbed ∧ answered.pins.rspReady = true ∧ answered.Inv ∧ answered.resp = some .ok ∧
      unanswered.Undisturbed ∧ unanswered.pins.rspReady = false ∧ unanswered.Inv ∧
      unanswered.resp = some .ok := by
  decide

theorem witness_ResetFromAnyState :
    (waiting 16 [{ rst := true }]).pins.rst = true ∧
      (streaming 1 [{ rst := true, cmd := some (full 1), cphAnswer := true }]).pins.rst = true := by
  decide

theorem witness_ResetValues :
    ∀ p ∈ [Pins.eager, { rst := true }].take 2, p.cmd = none := by decide

theorem witness_BackpressureHolds :
    (waiting 4 [{ cphAnswer := true }]).phase = .stream ∧
      (waiting 4 [{ cphAnswer := true }]).outbuf = some (beat1 false) ∧
      (waiting 4 [{ cphAnswer := true }]).NoResetFor 1 ∧
      (∀ p ∈ (waiting 4 [{ cphAnswer := true }]).env.take 1, p.outReady = false) ∧
      runWith Config.toy 1 (waiting 4 [{ cphAnswer := true }]) = .next (waiting 4 []) :=
  ⟨rfl, rfl, by decide, by decide, rfl⟩

theorem witness_SilentCipherWaits :
    (streaming 4 [{ outReady := true }]).blockEnabled = true ∧
      (streaming 4 [{ outReady := true }]).NoResetFor 1 ∧
      (∀ p ∈ (streaming 4 [{ outReady := true }]).env.take 1, p.cphAnswer = false) ∧
      runWith Config.toy 1 (streaming 4 [{ outReady := true }]) = .next (streaming 4 []) :=
  ⟨rfl, by decide, by decide, rfl⟩

theorem witness_StrayCipherAnswerIgnored :
    (waiting 4 []).blockEnabled = false ∧ State.reset.blockEnabled = false := by decide

theorem witness_CipherCallsOnlyInBlockSteps :
    (∃ t, stepWith Config.toy (streaming 20 [{ cphAnswer := true }]) = .next t) ∧
      (streaming 20 [{ cphAnswer := true }]).blockEnabled = true ∧
      (∃ t, stepWith Config.toy (streaming 20 []) = .next t) ∧
      ∃ t, stepWith Config.toy (waiting 4 [{ cphAnswer := true }]) = .next t :=
  ⟨⟨_, rfl⟩, rfl, ⟨_, rfl⟩, _, rfl⟩

theorem witness_KeyWrittenOnlyByInit :
    (∃ t, stepWith Config.toy (offeredThen (full 1) []) = .next t ∧
      t.k ≠ (offeredThen (full 1) []).k) ∧
    ∃ t, stepWith Config.toy (ready [{ rst := true }]) = .next t ∧ t.k ≠ (ready []).k :=
  ⟨⟨_, rfl, by decide⟩, ⟨_, rfl, by decide⟩⟩

theorem witness_LoadedSetByInitClearedByReset :
    (∃ t, stepWith Config.toy (ready [{ rst := true }]) = .next t ∧ (ready []).loaded = true ∧
      t.loaded = false) ∧
    ∃ t, stepWith Config.toy { State.reset with env := [{ cmd := some (full 1) }] } = .next t ∧
      State.reset.loaded = false ∧ t.loaded = true :=
  ⟨⟨_, rfl, rfl, rfl⟩, ⟨_, rfl, rfl, rfl⟩⟩

theorem witness_CounterWriters :
    (∃ t, stepWith Config.toy (offeredThen (full 2) []) = .next t ∧ t.dt = 5) ∧
      ∃ t, stepWith Config.toy (streaming 1 [{ cphAnswer := true }]) = .next t ∧ t.dt = 1 :=
  ⟨⟨_, rfl, rfl⟩, ⟨_, rfl, by decide⟩⟩

theorem witness_SecretsNotVisible :
    (some 7 : Option Bits128).isSome = (waiting 4 [{ outReady := true }]).k.isSome ∧
      (some 8 : Option Bits128).isSome = (waiting 4 [{ outReady := true }]).v.isSome ∧
      (waiting 4 [{ outReady := true }]).blockEnabled = false ∧
      ∃ t, stepWith Config.toy (waiting 4 [{ outReady := true }]) = .next t :=
  ⟨rfl, rfl, rfl, _, rfl⟩

theorem witness_DroppedBytesNotVisible :
    ∀ i < (streaming 15 []).keptBytes, byteOf 0x01 i = byteOf 0xff i := by decide

theorem witness_InstancesIndependent :
    (∃ t, stepWith Config.toy (offeredThen (full 1) []) = .next t) ∧
      ∃ sys', stepInstance Config.toy [waiting 4 [], offeredThen (full 1) []] ⟨1, by decide⟩ =
        .next sys' :=
  ⟨⟨_, rfl⟩, _, rfl⟩

theorem witness_StepKeepsInvariant :
    { State.reset with env := [{ cmd := some (full 1) }] }.Inv ∧
      (∃ t, step { State.reset with env := [{ cmd := some (full 1) }] } = .next t) ∧
      (streaming 17 [{ cphAnswer := true }]).Inv ∧
      ∃ t, step (streaming 17 [{ cphAnswer := true }]) = .next t :=
  ⟨by decide, ⟨_, rfl⟩, by decide, ⟨_, rfl⟩⟩

/-- States that no run reaches, in which a block step would read an absent K, or an absent V. -/
def keyless : State := { streaming 1 [{ cphAnswer := true }] with k := none }
def seedless : State := { streaming 1 [{ cphAnswer := true }] with v := none }

/-- Of the clause on faults and those for every state; then of the invariant, and of a refusal. -/
theorem witness_NoFaultAndOnlyHostRefused :
    keyless.k = none ∧ stepWith Config.toy keyless = .fault .absentKey ∧
      seedless.k = some 0 ∧ seedless.v = none ∧
      stepWith Config.toy seedless = .fault .absentSeed ∧
      { waiting 4 [{}] with pending := some (full 1) }.pins.cmd = none ∧
      State.reset.Inv ∧ { waiting 4 [{ cmd := some (full 2) }] with pending := some (full 1) }.Inv ∧
      decode (full 1) ≠ decode (full 2) ∧
      stepWith Config.toy { waiting 4 [{ cmd := some (full 2) }] with pending := some (full 1) } =
        .refused .commandNotHeld :=
  ⟨rfl, rfl, rfl, rfl, rfl, rfl, by decide, by decide, by decide, rfl⟩

/-- An offer withdrawn while the block is busy goes by unexecuted, and the step goes on (R55, R145). -/
theorem test_withdrawn_offer :
    stepWith Config.toy { waiting 4 [{}] with pending := some (full 1) } = .next (waiting 4 []) := rfl

theorem witness_SizesKeepFitting :
    5 ≤ 5 ∧ (offeredThen (encode (.generate 31)) []).SizesFit 5 ∧
      ∃ t, stepWith Config.toy (offeredThen (encode (.generate 31)) []) = .next t :=
  ⟨by decide, by decide, _, rfl⟩

theorem witness_ResetKeepsHistory :
    { waiting 16 [{ rst := true }] with calls := [⟨0, 0⟩], beats := [beat1 true] }.pins.rst = true := by
  decide

theorem witness_StatusWord :
    2 ≤ 2 ∧ (waiting 4 []).phase = .stream ∧ answered.resp.isSome = true := by decide

theorem witness_BigEndianBytes : 0 < 16 ∧ 15 < 16 := by decide

theorem witness_XorByteWise : 0 < 128 ∧ 127 < 128 ∧ 0 < 16 ∧ 15 < 16 := by decide

theorem witness_CounterPeriod : 0 < 2 ^ 128 ∧ (nbIter Config.toy 0 0 5 0).dt = 5 := by decide

theorem witness_BlockCornerCases :
    (1 : Bits128) = Config.toy 0 0 ∧ (nb Config.toy 0 1 0).out = Config.toy 0 0 := by decide

theorem witness_BeatLanes : 0 < 16 ∧ 15 < 16 := by decide

theorem witness_StreamByteOrder : 0 < 1 ∧ 16 < 17 := by decide

theorem witness_SequentialRequests : 16 % 16 = 0 ∧ 20 % 16 ≠ 0 ∧ 0 < 12 := by decide

/-- A loaded generator that is offered GENERATE 1 and served at once. -/
def generateOne : State :=
  ready [{ Pins.eager with cmd := some (encode (.generate 1)) }, Pins.eager, Pins.eager]

theorem witness_GenerateDelivers :
    generateOne.Inv ∧ generateOne.Accepts (encode (.generate 1)) ∧
      decode (encode (.generate 1)) = .generate (encode (.generate 1)).size ∧
      generateOne.k = some 0 ∧ generateOne.v = some 0 ∧ generateOne.NoResetFor 3 ∧
      ∃ t, runWith Config.toy 3 generateOne = .next t ∧ t.responses = generateOne.responses ∧
        t.resp.isSome = true :=
  ⟨by decide, by decide, by decide, rfl, rfl, by decide, _, rfl, rfl, rfl⟩

theorem witness_GenerateCompletes :
    generateOne.Inv ∧ generateOne.busy = false ∧ generateOne.pending = none ∧
      generateOne.loaded = true ∧
      generateOne.env = { Pins.eager with cmd := some (encode (.generate 1)) } ::
        (List.replicate (2 * ceilDiv16 1) Pins.eager ++ []) := by decide

theorem witness_CounterOutputDuringStream :
    generateOne.Inv ∧ generateOne.Accepts (encode (.generate 1)) ∧
      decode (encode (.generate 1)) = .generate (encode (.generate 1)).size ∧
      generateOne.loaded = true ∧ generateOne.NoResetFor (1 + 1) ∧
      ∃ t, runWith Config.toy (1 + 1) generateOne = .next t ∧ t.responses = generateOne.responses ∧
        t.outbuf.isSome = true :=
  ⟨by decide, by decide, by decide, rfl, by decide, _, rfl, rfl, rfl⟩

theorem witness_RunsAreWholeCommands :
    (offeredThen (full 1) [{ rspReady := true }]).Inv ∧
      (offeredThen (full 1) [{ rspReady := true }]).busy = false ∧
      (offeredThen (full 1) [{ rspReady := true }]).NoResetFor 2 ∧
      ∃ t, runWith Config.toy 2 (offeredThen (full 1) [{ rspReady := true }]) = .next t ∧
        t.busy = false ∧ t.responses = [.ok] :=
  ⟨by decide, rfl, by decide, _, rfl, rfl, rfl⟩

/-- The run of `witness_RunsAreWholeCommands` and the same with a step of waiting before the offer. -/
theorem witness_Determinism :
    (ready [{}, { cmd := some (full 1) }, { rspReady := true }]).Inv ∧
      (ready [{}, { cmd := some (full 1) }, { rspReady := true }]).NoResetFor 3 ∧
      (∃ t, runWith Config.toy 3 (ready [{}, { cmd := some (full 1) }, { rspReady := true }]) = .next t ∧
        t.busy = false) ∧
      acceptedIn Config.toy 3 (ready [{}, { cmd := some (full 1) }, { rspReady := true }]) = [full 1] ∧
      acceptedIn Config.toy 2 (offeredThen (full 1) [{ rspReady := true }]) = [full 1] :=
  ⟨by decide, by decide, ⟨_, rfl, rfl⟩, rfl, rfl⟩


theorem witness_IdleStepKeepsState :
    (ready [Pins.eager]).pins.rst = false ∧ (ready [Pins.eager]).busy = false ∧
      (ready [Pins.eager]).pins.cmd = none ∧
      { ready [{}] with pending := some (full 1) }.busy = false ∧
      { ready [{}] with pending := some (full 1) }.pins.cmd = none := by decide

theorem witness_SeedWriters :
    (∃ t, stepWith Config.toy (offeredThen (full 1) []) = .next t ∧ t.v = some 4) ∧
      (∃ t, stepWith Config.toy (ready [{ rst := true }]) = .next t ∧ t.v = none) ∧
      ∃ t, stepWith Config.toy (streaming 1 [{ cphAnswer := true }]) = .next t ∧ t.v = some 4 :=
  ⟨⟨_, rfl, rfl⟩, ⟨_, rfl, rfl⟩, ⟨_, rfl, by decide⟩⟩

end Sys2Proof.Tests
end

/-! ### Facts about the decoder, the pins and a step -/

namespace Sys2Proof.Machine

open Sys2Proof

theorem op_eq_of_toNat {c : Command} {n : Nat} (hn : n < 16) (h : c.op.toNat = n) :
    c.op = BitVec.ofNat 4 n :=
  BitVec.eq_of_toNat_eq (by simp [h, Nat.mod_eq_of_lt hn])

/-- Only opcode 0001 decodes to INIT, with the record's own key and seed (R57). -/
theorem decode_eq_init {c : Command} {key seed : Bits128} (h : decode c = .init key seed) :
    c.op = 0b0001#4 ∧ c.key = key ∧ c.seed = seed := by
  unfold decode at h
  split at h <;> cases h
  next hop => exact ⟨op_eq_of_toNat (by decide) hop, rfl, rfl⟩

/-- Only opcode 0010 decodes to LOAD_DT, with the record's own counter value (R57). -/
theorem decode_eq_loadDt {c : Command} {dt : Bits128} (h : decode c = .loadDt dt) :
    c.op = 0b0010#4 ∧ c.dt = dt := by
  unfold decode at h
  split at h <;> cases h
  next hop => exact ⟨op_eq_of_toNat (by decide) hop, rfl⟩

/-- Only opcode 0100 decodes to GENERATE, with the record's own size (R57). -/
theorem decode_eq_generate {c : Command} {n : Nat} (h : decode c = .generate n) :
    c.op = 0b0100#4 ∧ c.size = n := by
  unfold decode at h
  split at h <;> cases h
  next hop => exact ⟨op_eq_of_toNat (by decide) hop, rfl⟩

theorem stepWith_of_reset {E : Cipher} {s : State} (hr : s.pins.rst = true) :
    stepWith E s = .next s.advance.applyReset := by
  simp [stepWith, hr]

theorem stepWith_of_ready {E : Cipher} {s : State} (hr : s.pins.rst = false)
    (hh : s.holds s.pins.cmd = true) (hb : s.busy = false) :
    stepWith E s = acceptStep s.pins.cmd (s.advance.setPending none) := by
  simp [stepWith_of_held E s hr hh, hb]

theorem stepWith_of_busy {E : Cipher} {s : State} (hr : s.pins.rst = false)
    (hh : s.holds s.pins.cmd = true) (hb : s.busy = true) :
    stepWith E s = busyStepWith E s.pins (s.advance.setPending s.pins.cmd) := by
  simp [stepWith_of_held E s hr hh, hb]

theorem busyStepWith_of_blockEnabled {E : Cipher} {p : Pins} {s : State} (he : s.blockEnabled = true) :
    busyStepWith E p s = if p.cphAnswer then blockStepWith E s else .next s := by
  obtain ⟨-, ho, -⟩ := s.blockEnabled_iff.1 he
  simp [busyStepWith, ho, he]

theorem busyStepWith_env {E : Cipher} {p : Pins} {s t : State} (h : busyStepWith E p s = .next t) :
    t.env = s.env := by
  rcases busyStepWith_next E p s t h with ⟨b, -, -, rfl⟩ | ⟨-, -, hstep⟩ | ⟨r, -, -, -, -, rfl⟩ | rfl
  · simp
  · obtain ⟨k, v, -, -, rfl⟩ := blockStepWith_next E s t hstep
    simp
  · simp
  · rfl

theorem exec_env {i : Instr} {s t : State} (h : exec i s = .next t) : t.env = s.env := by
  rcases exec_cases i s t h with ⟨_, _, -, rfl⟩ | ⟨_, -, rfl⟩ | ⟨_, -, -, -, rfl⟩ | ⟨_, rfl, -⟩ <;> rfl

/-- Every step uses up one record of the environment (log entry 4). -/
theorem stepWith_env {E : Cipher} {s t : State} (h : stepWith E s = .next t) : t.env = s.env.tail := by
  rcases stepWith_next E s t h with
    ⟨-, rfl⟩ | ⟨-, -, ⟨c, -, -, hexec⟩ | ⟨-, -, rfl⟩ | ⟨-, hbusy⟩⟩
  · rfl
  · exact exec_env hexec
  · rfl
  · exact busyStepWith_env hbusy

/-- The pins of the next step are the environment's first record, or drive nothing. -/
theorem State.pins_eq (s : State) : s.pins = s.env.headD {} := by
  cases h : s.env <;> simp [State.pins, h]

theorem State.noResetFor_succ {s : State} {m : Nat} (h : s.NoResetFor (m + 1)) :
    s.pins.rst = false ∧ ∀ p ∈ s.env.tail.take m, p.rst = false := by
  rw [State.pins_eq]
  cases henv : s.env with
  | nil => simp
  | cons p ps => simpa [State.NoResetFor, henv] using h

/-- A run of `m + 1` steps is a step and a run of `m`. -/
theorem runWith_succ {E : Cipher} {m : Nat} {s t : State} (h : runWith E (m + 1) s = .next t) :
    ∃ u, stepWith E s = .next u ∧ runWith E m u = .next t := by
  simp only [runWith] at h
  split at h
  · next u hu => exact ⟨u, hu, h⟩
  · cases h
  · cases h

end Sys2Proof.Machine

/-! ### The invariant is kept (O35, O36) -/

namespace Sys2Proof.Machine

open Sys2Proof

/-- Settles O35: at reset nothing is owed, buffered or loaded. -/
theorem resetMeetsInvariant : Obligations.ResetMeetsInvariant := by
  unfold Obligations.ResetMeetsInvariant
  decide

/-- Zeroing the lanes from `n` on a second time changes nothing. -/
@[simp] theorem keep_keep (w : Bits128) (n : Nat) : keep (keep w n) n = keep w n := by
  simp [keep, BitVec.and_assoc]

theorem State.keptBytes_le (s : State) : s.keptBytes ≤ 16 := Nat.min_le_left _ _

/-- The five bits of `nbytes` hold the number of kept bytes, which is at most sixteen. -/
@[simp] theorem State.nextBeat_nbytes_toNat (s : State) (r : Bits128) :
    (s.nextBeat r).nbytes.toNat = s.keptBytes := by
  have hle := s.keptBytes_le
  simp [State.nextBeat, BitVec.toNat_ofNat]
  omega

theorem State.nextBeat_last (s : State) (r : Bits128) :
    (s.nextBeat r).last = decide (s.rem ≤ 16) := by
  have hiff : s.rem = s.keptBytes ↔ s.rem ≤ 16 := by simp only [State.keptBytes]; omega
  exact decide_eq_decide.2 hiff

/-- The beat of a block step that owes something is a valid one (R61, R106). -/
theorem State.nextBeat_valid (s : State) (r : Bits128) (hrem : 0 < s.rem) : (s.nextBeat r).Valid := by
  refine ⟨?_, ?_, ?_, ?_⟩
  · simp [State.keptBytes]; omega
  · simpa using s.keptBytes_le
  · rw [State.nextBeat_last]; simp [State.keptBytes]; omega
  · rw [State.nextBeat_nbytes_toNat]; exact (keep_keep _ _).symm

theorem State.applyReset_inv (s : State) : s.applyReset.Inv :=
  ⟨fun _ => ⟨rfl, rfl⟩, by simp [State.RespIdle], ⟨rfl, rfl⟩, by simp [State.StreamOwes],
    by simp [State.OutbufValid]⟩

/-- While BUSY = 0 nothing is owed and neither buffer holds anything (R36). -/
theorem State.Inv.of_not_busy {s : State} (hinv : s.Inv) (hb : s.busy = false) :
    s.phase = .idle ∧ s.rem = 0 ∧ s.outbuf = none ∧ s.resp = none := by
  obtain ⟨hidle, -⟩ := hinv
  obtain ⟨hp, hr⟩ := s.busy_eq_false_iff.1 hb
  exact ⟨hp, (hidle hp).1, (hidle hp).2, hr⟩

/-- A waiting beat belongs to a stream, so no response is pending (R36). -/
theorem State.Inv.of_outbuf {s : State} {b : Beat} (hinv : s.Inv) (ho : s.outbuf = some b) :
    s.phase = .stream ∧ s.resp = none := by
  obtain ⟨hidle, hresp, -⟩ := hinv
  have hp : s.phase = .stream := by
    cases hphase : s.phase with
    | stream => rfl
    | idle => simp [(hidle hphase).2] at ho
  refine ⟨hp, ?_⟩
  cases hr : s.resp with
  | none => rfl
  | some r => simp [State.RespIdle, hr, hp] at hresp

/-- A pending response means that the stream, if there was one, is over (R36). -/
theorem State.Inv.of_resp {s : State} {r : Response} (hinv : s.Inv) (hr : s.resp = some r) :
    s.phase = .idle ∧ s.rem = 0 ∧ s.outbuf = none := by
  obtain ⟨hidle, hresp, -⟩ := hinv
  have hp : s.phase = .idle := hresp (by simp [hr])
  exact ⟨hp, hidle hp⟩

/-- A stream in progress holds its key and seed and has no response yet (R36, R39). -/
theorem State.Inv.of_stream {s : State} (hinv : s.Inv) (hp : s.phase = .stream) :
    s.resp = none ∧ ∃ k v, s.k = some k ∧ s.v = some v := by
  obtain ⟨-, hresp, ⟨hk, hv⟩, howes, -⟩ := hinv
  refine ⟨?_, ?_⟩
  · cases hr : s.resp with
    | none => rfl
    | some r => simp [State.RespIdle, hr, hp] at hresp
  · rw [(howes hp).1] at hk hv
    obtain ⟨k, hk⟩ := Option.isSome_iff_exists.1 hk
    obtain ⟨v, hv⟩ := Option.isSome_iff_exists.1 hv
    exact ⟨k, v, hk, hv⟩

/-- Accepting a command while BUSY = 0 keeps the invariant. -/
theorem State.Inv.after_exec {i : Instr} {s t : State} (hinv : s.Inv) (hb : s.busy = false)
    (h : exec i s = .next t) : t.Inv := by
  obtain ⟨hp, hrem, ho, hr⟩ := hinv.of_not_busy hb
  obtain ⟨-, -, hloaded, -⟩ := hinv
  rcases exec_cases i s t h with ⟨key, seed, -, rfl⟩ | ⟨d, -, rfl⟩ | ⟨n, hn, hl, -, rfl⟩ | ⟨r, rfl, -⟩
  · exact ⟨fun _ => ⟨hrem, ho⟩, fun _ => hp, ⟨rfl, rfl⟩, by simp [State.StreamOwes, hp],
      by simp [State.OutbufValid, ho]⟩
  · exact ⟨fun _ => ⟨hrem, ho⟩, fun _ => hp, hloaded, by simp [State.StreamOwes, hp],
      by simp [State.OutbufValid, ho]⟩
  · exact ⟨by simp, by simp [State.RespIdle, hr], hloaded, fun _ => ⟨hl, .inr hn⟩,
      by simp [State.OutbufValid, ho]⟩
  · exact ⟨fun _ => ⟨hrem, ho⟩, fun _ => hp, hloaded, by simp [State.StreamOwes, hp],
      by simp [State.OutbufValid, ho]⟩

/-- Taking a waiting beat keeps the invariant: the last one ends the stream, another leaves bytes
owed. -/
theorem State.Inv.after_acceptBeat {s : State} {b : Beat} (hinv : s.Inv) (ho : s.outbuf = some b) :
    (s.acceptBeat b).Inv := by
  obtain ⟨hp, hr⟩ := hinv.of_outbuf ho
  obtain ⟨-, -, hloaded, howes, hvalid⟩ := hinv
  have hlast : b.last = decide (s.rem = 0) := (hvalid b ho).2
  refine ⟨?_, ?_, by simpa [State.LoadedHolds] using hloaded, ?_, by simp [State.OutbufValid]⟩
  · by_cases hz : s.rem = 0 <;> simp [State.IdleClear, hlast, hz, hp]
  · by_cases hz : s.rem = 0 <;> simp [State.RespIdle, hlast, hz, hr]
  · by_cases hz : s.rem = 0 <;>
      simp [State.StreamOwes, hlast, hz, (howes hp).1, Nat.pos_iff_ne_zero]

theorem State.Inv.after_acceptResponse {s : State} {r : Response} (hinv : s.Inv) :
    (s.acceptResponse r).Inv := by
  obtain ⟨hidle, -, hloaded, howes, hvalid⟩ := hinv
  exact ⟨hidle, by simp [State.RespIdle], hloaded, howes, hvalid⟩

/-- A block step keeps the invariant: its beat is valid, and the last exactly when nothing is owed past
it. -/
theorem State.Inv.after_blockStep {E : Cipher} {s t : State} (hinv : s.Inv) (he : s.blockEnabled = true)
    (h : blockStepWith E s = .next t) : t.Inv := by
  obtain ⟨hp, -, hrem⟩ := s.blockEnabled_iff.1 he
  obtain ⟨k, v, hk, hv, rfl⟩ := blockStepWith_next E s t h
  obtain ⟨hr, -⟩ := hinv.of_stream hp
  obtain ⟨-, -, hloaded, howes, -⟩ := hinv
  refine ⟨by simp [State.IdleClear, hp], by simp [State.RespIdle, hr], ?_, ?_, ?_⟩
  · simpa [State.LoadedHolds, hv] using hloaded
  · exact fun _ => ⟨(howes hp).1, .inl rfl⟩
  · intro b hb
    obtain rfl : s.nextBeat (nb E k v s.dt).out = b := by simpa using hb
    have hiff : s.rem ≤ 16 ↔ s.rem - s.keptBytes = 0 := by simp only [State.keptBytes]; omega
    exact ⟨s.nextBeat_valid _ hrem, (s.nextBeat_last _).trans (decide_eq_decide.2 hiff)⟩

theorem State.Inv.after_busyStep {E : Cipher} {p : Pins} {s t : State} (hinv : s.Inv)
    (h : busyStepWith E p s = .next t) : t.Inv := by
  rcases busyStepWith_next E p s t h with ⟨b, ho, -, rfl⟩ | ⟨he, -, hstep⟩ | ⟨r, -, -, -, -, rfl⟩ | rfl
  · exact hinv.after_acceptBeat ho
  · exact hinv.after_blockStep he hstep
  · exact hinv.after_acceptResponse
  · exact hinv

/-- The invariant is kept by every step, whatever the cipher. -/
theorem State.Inv.after_step {E : Cipher} {s t : State} (hinv : s.Inv) (h : stepWith E s = .next t) :
    t.Inv := by
  rcases stepWith_next E s t h with
    ⟨-, rfl⟩ | ⟨-, -, ⟨c, hb, -, hexec⟩ | ⟨-, -, rfl⟩ | ⟨-, hbusy⟩⟩
  · exact s.advance.applyReset_inv
  · exact State.Inv.after_exec (s := s.advance.setPending none) hinv hb hexec
  · exact hinv
  · exact State.Inv.after_busyStep (s := s.advance.setPending s.pins.cmd) hinv hbusy

/-- Settles O36: reset gives the reset state, and each other transaction keeps the invariant. -/
theorem stepKeepsInvariant : Obligations.StepKeepsInvariant := by
  unfold Obligations.StepKeepsInvariant
  exact fun _ _ hinv h => hinv.after_step h

end Sys2Proof.Machine

/-! ### Runs are whole commands, and their result depends on nothing else (O57)

`State.settle` completes what a state has begun: a transaction of a command leaves the settled state as
it is, and the acceptance of a command runs that command whole. What else the states of a run hold, the
history and the environment, is a `Surround`, and every whole command commutes with it. -/

namespace Sys2Proof.Machine

open Sys2Proof

/-- What a command does not read: the history it adds to, the waiting offer and the environment. -/
structure Surround where
  calls     : List CipherCall
  beats     : List Beat
  responses : List Response
  pending   : Option Command
  env       : List Pins

/-- `s` with an earlier history before its own, and with another offer and environment. -/
def State.within (x : Surround) (s : State) : State :=
  { s with
    calls := x.calls ++ s.calls, beats := x.beats ++ s.beats, responses := x.responses ++ s.responses,
    pending := x.pending, env := x.env }

/-- `s` with no offer and no environment. -/
def State.bare (s : State) : State := s.within ⟨[], [], [], none, []⟩

/-- The generator of `s` alone: ready, with no history. -/
def State.generator (s : State) : State :=
  { State.reset with k := s.k, v := s.v, dt := s.dt, loaded := s.loaded }

/-- Completes the command in progress, if any: the waiting beat leaves, then the stream and the response
run to their end. -/
def State.settle (E : Cipher) (s : State) : State :=
  match s.outbuf with
  | some b => (s.acceptBeat b).finish E
  | none => if s.busy then s.finish E else s

/-- The whole effect of a list of commands accepted one after the other. -/
def wholeCommands (E : Cipher) (cs : List Command) (s : State) : State :=
  cs.foldl (fun u c => wholeCommand E (decode c) u) s

/-! #### Nothing of a whole command depends on what surrounds it -/

@[simp] theorem State.within_loaded (x : Surround) (s : State) : (s.within x).loaded = s.loaded := rfl

@[simp] theorem State.within_status (x : Surround) (s : State) : (s.within x).status = s.status := rfl

theorem State.respond_within (x : Surround) (s : State) (r : Response) :
    (s.within x).respond r = (s.respond r).within x := rfl

theorem State.reject_within (x : Surround) (s : State) (r : Response) :
    (s.within x).reject r = (s.reject r).within x := rfl

theorem State.startStream_within (x : Surround) (s : State) (n : Nat) :
    (s.within x).startStream n = (s.startStream n).within x := rfl

theorem State.acceptResponse_within (x : Surround) (s : State) (r : Response) :
    (s.within x).acceptResponse r = (s.acceptResponse r).within x := by
  simp [State.acceptResponse, State.within]

theorem State.acceptBeat_within (x : Surround) (s : State) (b : Beat) :
    (s.within x).acceptBeat b = (s.acceptBeat b).within x := by
  cases h : b.last <;> simp [State.acceptBeat, State.within, State.respond, h]

/-- A stream whose key and seed are held runs to its end (R101, R104, R147). -/
theorem State.finishStream_some {E : Cipher} {s : State} {k v : Bits128} (hk : s.k = some k)
    (hv : s.v = some v) :
    s.finishStream E =
      { s with
        v := some (nbIter E k v s.dt (ceilDiv16 s.rem)).seed
        dt := (nbIter E k v s.dt (ceilDiv16 s.rem)).dt
        phase := .idle, rem := 0
        calls := s.calls ++ iterCalls E k v s.dt (ceilDiv16 s.rem)
        beats := s.beats ++ beatsOf (nbIter E k v s.dt (ceilDiv16 s.rem)).outs s.rem
        responses := s.responses ++ [.ok] } := by
  simp [State.finishStream, hk, hv]

theorem State.finishStream_absent {E : Cipher} {s : State} (h : s.k = none ∨ s.v = none) :
    s.finishStream E = s := by
  rcases h with h | h <;> simp [State.finishStream, h]

theorem State.finishStream_within (E : Cipher) (x : Surround) (s : State) :
    (s.within x).finishStream E = (s.finishStream E).within x := by
  by_cases h : s.k = none ∨ s.v = none
  · rw [finishStream_absent h, finishStream_absent (s := s.within x) h]
  · obtain ⟨hk, hv⟩ := not_or.1 h
    obtain ⟨k, hk⟩ := Option.ne_none_iff_exists'.1 hk
    obtain ⟨v, hv⟩ := Option.ne_none_iff_exists'.1 hv
    rw [finishStream_some hk hv, finishStream_some (s := s.within x) hk hv]
    simp [State.within]

theorem State.finish_of_resp {E : Cipher} {s : State} {r : Response} (hr : s.resp = some r) :
    s.finish E = s.acceptResponse r := by
  simp [State.finish, hr]

theorem State.finish_of_no_resp {E : Cipher} {s : State} (hr : s.resp = none) :
    s.finish E = s.finishStream E := by
  simp [State.finish, hr]

theorem State.finish_within (E : Cipher) (x : Surround) (s : State) :
    (s.within x).finish E = (s.finish E).within x := by
  cases hr : s.resp with
  | none =>
    rw [finish_of_no_resp hr, finish_of_no_resp (s := s.within x) hr, finishStream_within]
  | some r =>
    rw [finish_of_resp hr, finish_of_resp (s := s.within x) hr, acceptResponse_within]

theorem exec_within (x : Surround) {i : Instr} {s t : State} (h : exec i s = .next t) :
    exec i (s.within x) = .next (t.within x) := by
  cases i with
  | nextBlock =>
    simp only [exec, execNextBlock, State.within_loaded, State.startStream_within,
      State.reject_within] at h ⊢
    split at h <;> next hl => cases h; simp [hl]
  | generate n =>
    simp only [exec, execGenerate, State.within_loaded, State.startStream_within,
      State.respond_within, State.reject_within] at h ⊢
    split at h
    · next hl => split at h <;> next hn => cases h; simp [hl, hn]
    · next hl => cases h; simp [hl]
  | init key seed => cases h; rfl
  | loadDt dt => cases h; rfl
  | reserved0 => cases h; rfl
  | reserved5 => cases h; rfl
  | reserved67 b => cases h; rfl
  | reserved8F l => cases h; rfl

theorem wholeCommand_of_exec {E : Cipher} {i : Instr} {s t : State} (h : exec i s = .next t) :
    wholeCommand E i s = t.finish E := by
  simp [wholeCommand, h]

theorem wholeCommand_within (E : Cipher) (x : Surround) (i : Instr) (s : State) :
    wholeCommand E i (s.within x) = (wholeCommand E i s).within x := by
  obtain ⟨t, h⟩ := exec_answers i s
  rw [wholeCommand_of_exec h, wholeCommand_of_exec (exec_within x h), State.finish_within]

theorem wholeCommands_within (E : Cipher) (x : Surround) (cs : List Command) (s : State) :
    wholeCommands E cs (s.within x) = (wholeCommands E cs s).within x := by
  induction cs generalizing s with
  | nil => rfl
  | cons c cs ih =>
    simp only [wholeCommands, List.foldl_cons, wholeCommand_within] at ih ⊢
    exact ih _

theorem State.settle_of_outbuf {E : Cipher} {s : State} {b : Beat} (ho : s.outbuf = some b) :
    s.settle E = (s.acceptBeat b).finish E := by
  simp [State.settle, ho]

theorem State.settle_of_busy {E : Cipher} {s : State} (ho : s.outbuf = none) (hb : s.busy = true) :
    s.settle E = s.finish E := by
  simp [State.settle, ho, hb]

theorem State.settle_of_ready {E : Cipher} {s : State} (ho : s.outbuf = none) (hb : s.busy = false) :
    s.settle E = s := by
  simp [State.settle, ho, hb]

theorem State.settle_within (E : Cipher) (x : Surround) (s : State) :
    (s.within x).settle E = (s.settle E).within x := by
  cases ho : s.outbuf with
  | some b =>
    rw [settle_of_outbuf ho, settle_of_outbuf (s := s.within x) ho, acceptBeat_within, finish_within]
  | none =>
    cases hb : s.busy with
    | true => rw [settle_of_busy ho hb, settle_of_busy (s := s.within x) ho hb, finish_within]
    | false => rw [settle_of_ready ho hb, settle_of_ready (s := s.within x) ho hb]

theorem State.settle_bare (E : Cipher) (s : State) : s.bare.settle E = (s.settle E).bare :=
  s.settle_within E _

@[simp] theorem State.bare_advance_setPending (s : State) (o : Option Command) :
    (s.advance.setPending o).bare = s.bare := rfl

/-! #### A step settles as its state does, and runs the command it accepts whole -/

/-- One block more is asked for as long as bytes are owed. -/
theorem ceilDiv16_of_pos {n : Nat} (hn : 0 < n) : ceilDiv16 n = ceilDiv16 (n - min 16 n) + 1 := by
  simp only [ceilDiv16]
  omega

/-- The beat that a block step places in OUTBUF is the first of those the stream delivers (R105). -/
theorem State.nextBeat_eq (s : State) (r : Bits128) :
    s.nextBeat r = { data := keep r (min 16 s.rem), nbytes := BitVec.ofNat 5 (min 16 s.rem),
                     last := decide (s.rem ≤ 16) } := by
  rw [← s.nextBeat_last r]
  rfl

theorem State.busy_acceptBeat {s : State} {b : Beat} (hp : s.phase = .stream) :
    (s.acceptBeat b).busy = true := by
  cases h : b.last <;> simp [State.busy, h, hp]

theorem State.settle_acceptBeat {E : Cipher} {s : State} {b : Beat} (hinv : s.Inv)
    (ho : s.outbuf = some b) : (s.acceptBeat b).settle E = s.settle E := by
  rw [settle_of_outbuf ho,
    settle_of_busy (s.acceptBeat_outbuf b) (busy_acceptBeat (hinv.of_outbuf ho).1)]

theorem State.settle_acceptResponse {E : Cipher} {s : State} {r : Response} (hinv : s.Inv)
    (hr : s.resp = some r) : (s.acceptResponse r).settle E = s.settle E := by
  obtain ⟨hp, -, ho⟩ := hinv.of_resp hr
  rw [settle_of_ready (s := s.acceptResponse r) ho (by simp [State.busy, hp]),
    settle_of_busy ho (by simp [State.busy, hr]), finish_of_resp hr]

/-- Finishing a stream is its first block step, the acceptance of the beat, and the rest. -/
theorem State.finishStream_blockStep {E : Cipher} {s t : State} (hinv : s.Inv)
    (he : s.blockEnabled = true) (h : blockStepWith E s = .next t) :
    s.finishStream E = t.settle E := by
  obtain ⟨hp, ho, hrem⟩ := s.blockEnabled_iff.1 he
  obtain ⟨hr, -⟩ := hinv.of_stream hp
  obtain ⟨k, v, hk, hv, rfl⟩ := blockStepWith_next E s t h
  have hbeat := s.nextBeat_eq (nb E k v s.dt).out
  rw [settle_of_outbuf ((State.recordCalls_outbuf _ _).trans (s.commitBlock_outbuf _)),
    finishStream_some hk hv, ceilDiv16_of_pos hrem]
  by_cases hlast : s.rem ≤ 16
  · rw [finish_of_resp (r := .ok) (by simp [hbeat, hlast])]
    simp [State.acceptResponse, State.acceptBeat, State.commitBlock, State.recordCalls,
      State.emitBeat, State.respond, State.keptBytes, hbeat, hlast, ceilDiv16, nbIter, iterCalls,
      beatsOf, ho, hr]
  · have hmin : min 16 s.rem = 16 := by omega
    rw [finish_of_no_resp (by simp [hbeat, hlast, hr]), finishStream_some (k := k)
      (v := (nb E k v s.dt).seed) (by simpa using hk) (by simp)]
    simp [State.acceptBeat, State.commitBlock, State.recordCalls, State.emitBeat, State.keptBytes,
      hbeat, hlast, hmin, nbIter, iterCalls, beatsOf, ho]

theorem State.settle_blockStep {E : Cipher} {s t : State} (hinv : s.Inv) (he : s.blockEnabled = true)
    (h : blockStepWith E s = .next t) : t.settle E = s.settle E := by
  obtain ⟨hp, ho, -⟩ := s.blockEnabled_iff.1 he
  rw [settle_of_busy ho (by simp [State.busy, hp]), finish_of_no_resp (hinv.of_stream hp).1,
    finishStream_blockStep hinv he h]

/-- No transaction of a command in progress changes where that command leads. -/
theorem State.settle_busyStep {E : Cipher} {p : Pins} {s t : State} (hinv : s.Inv)
    (h : busyStepWith E p s = .next t) : t.settle E = s.settle E := by
  rcases busyStepWith_next E p s t h with ⟨b, ho, -, rfl⟩ | ⟨he, -, hstep⟩ | ⟨r, -, -, hr, -, rfl⟩ | rfl
  · exact settle_acceptBeat hinv ho
  · exact settle_blockStep hinv he hstep
  · exact settle_acceptResponse hinv hr
  · rfl

/-- An accepted command makes the block busy, with no beat waiting yet. -/
theorem busy_of_exec {i : Instr} {s t : State} (h : exec i s = .next t) :
    t.busy = true ∧ t.outbuf = s.outbuf := by
  rcases exec_cases i s t h with ⟨_, _, -, rfl⟩ | ⟨_, -, rfl⟩ | ⟨_, -, -, -, rfl⟩ | ⟨_, rfl, -⟩ <;>
    simp [State.busy]

/-- Accepting a command leads where the whole command leads. -/
theorem State.settle_exec {E : Cipher} {i : Instr} {s t : State} (hinv : s.Inv) (hb : s.busy = false)
    (h : exec i s = .next t) : t.settle E = wholeCommand E i s := by
  obtain ⟨hbt, hot⟩ := busy_of_exec h
  obtain ⟨-, -, ho, -⟩ := hinv.of_not_busy hb
  rw [settle_of_busy (hot.trans ho) hbt, wholeCommand_of_exec h]

theorem State.settle_eq_self {E : Cipher} {s : State} (hinv : s.Inv) (hb : s.busy = false) :
    s.settle E = s := by
  obtain ⟨-, -, ho, -⟩ := hinv.of_not_busy hb
  exact settle_of_ready ho hb

/-- A step without reset leads where its state leads, then runs the command it accepts, if any. -/
theorem State.settle_step {E : Cipher} {s t : State} (hinv : s.Inv) (hrst : s.pins.rst = false)
    (h : stepWith E s = .next t) :
    (t.settle E).bare = wholeCommands E s.acceptedNow.toList (s.settle E).bare := by
  rcases stepWith_next E s t h with
    ⟨hr, -⟩ | ⟨-, -, ⟨c, hb, hc, hexec⟩ | ⟨hb, hc, rfl⟩ | ⟨hb, hbusy⟩⟩
  · simp [hrst] at hr
  · have hacc : s.acceptedNow = some c := by simp [State.acceptedNow, hb, hc]
    rw [hacc, settle_exec (s := s.advance.setPending none) hinv hb hexec, settle_eq_self hinv hb]
    exact (wholeCommand_within E _ _ _).symm
  · have hacc : s.acceptedNow = none := by simp [State.acceptedNow, hc]
    rw [hacc, ← settle_bare, bare_advance_setPending, settle_bare]
    rfl
  · have hacc : s.acceptedNow = none := by simp [State.acceptedNow, hb]
    rw [hacc, settle_busyStep (s := s.advance.setPending s.pins.cmd) hinv hbusy, ← settle_bare,
      bare_advance_setPending, settle_bare]
    rfl

/-! #### Runs -/

theorem acceptedIn_succ {E : Cipher} {m : Nat} {s u : State} (h : stepWith E s = .next u) :
    acceptedIn E (m + 1) s = s.acceptedNow.toList ++ acceptedIn E m u := by
  simp [acceptedIn, h]

/-- A run without reset leads where its first state leads and then runs the commands it accepted, whole
and in order (R51). -/
theorem State.settle_run {E : Cipher} {m : Nat} {s t : State} (hinv : s.Inv) (hrst : s.NoResetFor m)
    (h : runWith E m s = .next t) :
    t.Inv ∧ (t.settle E).bare = wholeCommands E (acceptedIn E m s) (s.settle E).bare := by
  induction m generalizing s with
  | zero => cases h; exact ⟨hinv, rfl⟩
  | succ m ih =>
    obtain ⟨u, hstep, hrun⟩ := runWith_succ h
    obtain ⟨hnow, hlater⟩ := noResetFor_succ hrst
    have hu : u.NoResetFor m := by rwa [State.NoResetFor, stepWith_env hstep]
    obtain ⟨htinv, hsettle⟩ := ih (hinv.after_step hstep) hu hrun
    refine ⟨htinv, ?_⟩
    rw [hsettle, settle_step hinv hnow hstep, acceptedIn_succ hstep]
    simp [wholeCommands]

/-- Between ready states a run is, but for the offer and the environment, the commands it accepted. -/
theorem bare_run_ready {E : Cipher} {m : Nat} {s t : State} (hinv : s.Inv) (hs : s.busy = false)
    (hrst : s.NoResetFor m) (h : runWith E m s = .next t) (ht : t.busy = false) :
    t.bare = wholeCommands E (acceptedIn E m s) s.bare := by
  obtain ⟨htinv, hsettle⟩ := State.settle_run hinv hrst h
  rwa [State.settle_eq_self htinv ht, State.settle_eq_self hinv hs] at hsettle

/-- A ready state is its generator and its history, but for the offer and the environment. -/
theorem State.bare_eq_generator_within {s : State} (hinv : s.Inv) (hb : s.busy = false) :
    s.bare = s.generator.within ⟨s.calls, s.beats, s.responses, none, []⟩ := by
  obtain ⟨hp, hrem, ho, hr⟩ := hinv.of_not_busy hb
  simp [State.bare, State.generator, State.within, State.reset, hp, hrem, ho, hr]

/-- The result of a run between ready states is that of its commands on the generator alone: nothing
that came before, and no timing, shows in it. -/
theorem resultSince_run_ready {E : Cipher} {m : Nat} {s t : State} (hinv : s.Inv) (hs : s.busy = false)
    (hrst : s.NoResetFor m) (h : runWith E m s = .next t) (ht : t.busy = false) :
    t.resultSince s = (wholeCommands E (acceptedIn E m s) s.generator).resultSince State.reset := by
  have hbare : t.bare.resultSince s = t.resultSince s := rfl
  rw [← hbare, bare_run_ready hinv hs hrst h ht, State.bare_eq_generator_within hinv hs,
    wholeCommands_within]
  simp only [State.resultSince, State.within_status]
  simp [State.within, State.reset, State.dtO]

/-- Settles O57: equal generators and equal commands give the same state of the generator alone. -/
theorem determinism : Obligations.Determinism := by
  unfold Obligations.Determinism
  intro E s s' t t' m m' hinv hs hrst hrun ht hinv' hs' hrst' hrun' ht' hk hv hdt hl hcmds
  have hgen : s'.generator = s.generator := by simp [State.generator, hk, hv, hdt, hl]
  rw [resultSince_run_ready hinv hs hrst hrun ht, resultSince_run_ready hinv' hs' hrst' hrun' ht',
    hgen, hcmds]

end Sys2Proof.Machine

/-! ### The values after reset (O24) and what a reset keeps (O23) -/

namespace Sys2Proof.Machine

open Sys2Proof

/-- Settles O23: the step is RESET, which touches no history. -/
theorem resetKeepsHistory : Obligations.ResetKeepsHistory := by
  unfold Obligations.ResetKeepsHistory
  intro E s hr
  exact ⟨_, stepWith_of_reset hr, rfl, rfl, rfl, rfl⟩

/-- The reset state with an environment that offers no command now steps to itself. -/
theorem stepWith_reset {E : Cipher} {ps : List Pins} (h : (ps.headD {}).cmd = none) :
    stepWith E { State.reset with env := ps } = .next { State.reset with env := ps.tail } := by
  rw [← State.pins_eq { State.reset with env := ps }] at h
  cases hr : State.pins { State.reset with env := ps } |>.rst with
  | true => exact stepWith_of_reset hr
  | false =>
    rw [stepWith_of_held E _ hr rfl, h]
    rfl

/-- The reset state stays as it is for as long as no command is offered (R141). -/
theorem runWith_reset {E : Cipher} {m : Nat} {ps : List Pins} (h : ∀ p ∈ ps.take m, p.cmd = none) :
    runWith E m { State.reset with env := ps } = .next { State.reset with env := ps.drop m } := by
  induction m generalizing ps with
  | zero => rfl
  | succ m ih =>
    have hnow : (ps.headD {}).cmd = none := by cases ps <;> simp_all
    have hlater : ∀ p ∈ ps.tail.take m, p.cmd = none := by cases ps <;> simp_all
    simp only [runWith, stepWith_reset hnow, ih hlater, List.drop_tail]

/-- Settles O24: the run leaves the reset state, but for the environment. -/
theorem resetValues : Obligations.ResetValues := by
  unfold Obligations.ResetValues
  intro E ps m h
  have hstatus : State.status { State.reset with env := ps.drop m } = 0x00#8 :=
    show State.reset.status = 0x00#8 from rfl
  exact ⟨_, runWith_reset h, rfl, rfl, rfl, rfl, rfl, rfl, rfl, rfl, hstatus, rfl, rfl, rfl⟩

end Sys2Proof.Machine

/-! ### STATUS (O39) -/

namespace Sys2Proof.Machine

open Sys2Proof

/-- STATUS bit by bit (R29). -/
theorem State.status_getLsbD (s : State) (i : Nat) :
    s.status.getLsbD i = if i = 0 then s.busy else if i = 1 then s.loaded else false := by
  have happ : s.status.getLsbD i =
      ((0b000000#6 ++ BitVec.ofBool s.loaded : BitVec 7) ++ BitVec.ofBool s.busy).getLsbD i := rfl
  rw [happ, BitVec.getLsbD_append, BitVec.getLsbD_append]
  match i with
  | 0 => simp
  | 1 => simp
  | i + 2 => simp

theorem State.busy_iff (s : State) : s.busy = true ↔ s.phase = .stream ∨ s.resp.isSome = true := by
  simp [State.busy]

/-- Settles O39, from STATUS bit by bit. -/
theorem statusWord : Obligations.StatusWord := by
  unfold Obligations.StatusWord
  intro s
  have hbit0 : s.status.getLsbD 0 = s.busy := s.status_getLsbD 0
  refine ⟨?_, s.status_getLsbD 1, fun i hi => ?_, rfl, ?_, rfl, rfl⟩
  · rw [hbit0, s.busy_iff]
  · rw [s.status_getLsbD, if_neg (by omega), if_neg (by omega)]
  · rw [hbit0, State.cmdReady, Bool.not_eq_true']

end Sys2Proof.Machine

/-! ### Who writes K, V, DT and LOADED (O29, O30, O31, O59) -/

namespace Sys2Proof.Machine

open Sys2Proof

/-- What a step from `s` to `t` does to K, V, DT and LOADED, and which transaction does it. -/
inductive GeneratorStep (E : Cipher) (s t : State) : Prop
  /-- Reset (R35). -/
  | reset (hrst : s.pins.rst = true) (hk : t.k = none) (hv : t.v = none) (hdt : t.dt = 0)
      (hl : t.loaded = false)
  /-- An accepted INIT (R70). -/
  | init (c : Command) (hacc : s.Accepts c) (hdec : decode c = .init c.key c.seed)
      (hop : c.op = 0b0001#4) (hk : t.k = some c.key) (hv : t.v = some c.seed) (hdt : t.dt = 0)
      (hl : t.loaded = true)
  /-- An accepted LOAD_DT (R73). -/
  | loadDt (c : Command) (hacc : s.Accepts c) (hop : c.op = 0b0010#4) (hk : t.k = s.k)
      (hv : t.v = s.v) (hdt : t.dt = c.dt) (hl : t.loaded = s.loaded)
  /-- A block step (R102). -/
  | block (k v : Bits128) (he : s.blockEnabled = true) (hans : s.pins.cphAnswer = true)
      (hsk : s.k = some k) (hsv : s.v = some v) (hk : t.k = s.k)
      (hv : t.v = some (nb E k v s.dt).seed) (hdt : t.dt = s.dt + 1) (hl : t.loaded = s.loaded)
  /-- Every other step. -/
  | unchanged (hk : t.k = s.k) (hv : t.v = s.v) (hdt : t.dt = s.dt) (hl : t.loaded = s.loaded)

/-- Accepting a command writes the generator only if it is an INIT or a LOAD_DT. -/
theorem GeneratorStep.of_exec {E : Cipher} {s t : State} {c : Command} (hacc : s.Accepts c)
    (h : exec (decode c) (s.advance.setPending none) = .next t) : GeneratorStep E s t := by
  rcases exec_cases _ _ t h with ⟨key, seed, hdec, rfl⟩ | ⟨d, hdec, rfl⟩ | ⟨n, -, -, -, rfl⟩ | ⟨r, rfl, -⟩
  · obtain ⟨hop, rfl, rfl⟩ := decode_eq_init hdec
    exact .init c hacc hdec hop rfl rfl rfl rfl
  · obtain ⟨hop, rfl⟩ := decode_eq_loadDt hdec
    exact .loadDt c hacc hop rfl rfl rfl rfl
  · exact .unchanged rfl rfl rfl rfl
  · exact .unchanged rfl rfl rfl rfl

/-- While BUSY = 1 only the block step writes the generator. -/
theorem GeneratorStep.of_busyStep {E : Cipher} {s t : State} {o : Option Command}
    (h : busyStepWith E s.pins (s.advance.setPending o) = .next t) : GeneratorStep E s t := by
  rcases busyStepWith_next E _ _ t h with
    ⟨b, -, -, rfl⟩ | ⟨he, hans, hstep⟩ | ⟨r, -, -, -, -, rfl⟩ | rfl
  · exact .unchanged (by simp) (by simp) (by simp) (by simp)
  · obtain ⟨k, v, hk, hv, rfl⟩ := blockStepWith_next E _ t hstep
    exact .block k v he hans hk hv rfl rfl rfl rfl
  · exact .unchanged rfl rfl rfl rfl
  · exact .unchanged rfl rfl rfl rfl

/-- Every step is one of the five kinds. -/
theorem GeneratorStep.of_stepWith {E : Cipher} {s t : State} (h : stepWith E s = .next t) :
    GeneratorStep E s t := by
  rcases stepWith_next E s t h with
    ⟨hrst, rfl⟩ | ⟨hrst, hheld, ⟨c, hb, hc, hexec⟩ | ⟨-, -, rfl⟩ | ⟨-, hbusy⟩⟩
  · exact .reset hrst rfl rfl rfl rfl
  · exact .of_exec ⟨⟨hrst, hheld⟩, hc, hb⟩ hexec
  · exact .unchanged rfl rfl rfl rfl
  · exact .of_busyStep hbusy

/-- Settles O29: of the five kinds of step only reset and INIT change K. -/
theorem keyWrittenOnlyByInit : Obligations.KeyWrittenOnlyByInit := by
  unfold Obligations.KeyWrittenOnlyByInit
  intro E s t h hne
  cases GeneratorStep.of_stepWith h with
  | reset hrst hk => exact .inl ⟨hrst, hk⟩
  | init c hacc hdec hop hk hv hdt hl => exact .inr ⟨c, _, _, hacc, hdec, hk, hv, hdt, hl⟩
  | loadDt c hacc hop hk => exact absurd hk hne
  | block k v he hans hsk hsv hk => exact absurd hk hne
  | unchanged hk => exact absurd hk hne

/-- Settles O30: reset clears LOADED, INIT sets it, and the other kinds of step keep it. -/
theorem loadedSetByInitClearedByReset : Obligations.LoadedSetByInitClearedByReset := by
  unfold Obligations.LoadedSetByInitClearedByReset
  intro E s t h
  cases GeneratorStep.of_stepWith h with
  | reset hrst hk hv hdt hl => simp [hrst, hl]
  | init c hacc hdec hop hk hv hdt hl => simpa [hl] using fun _ => ⟨c, hacc, hop, hk, hv⟩
  | loadDt c hacc hop hk hv hdt hl => simp +contextual [hl]
  | block k v he hans hsk hsv hk hv hdt hl => simp +contextual [hl]
  | unchanged hk hv hdt hl => simp +contextual [hl]

/-- Settles O31: each of the five kinds of step is one of the cases for DT. -/
theorem counterWriters : Obligations.CounterWriters := by
  unfold Obligations.CounterWriters
  intro E s t h
  cases GeneratorStep.of_stepWith h with
  | reset hrst hk hv hdt => exact .inr (.inl ⟨hrst, hdt⟩)
  | init c hacc hdec hop hk hv hdt => exact .inr (.inr (.inl ⟨c, hacc, hop, hdt⟩))
  | loadDt c hacc hop hk hv hdt => exact .inr (.inr (.inr (.inl ⟨c, hacc, hop, hdt⟩)))
  | block k v he hans hsk hsv hk hv hdt => exact .inr (.inr (.inr (.inr ⟨he, hans, hdt⟩)))
  | unchanged hk hv hdt => exact .inl hdt

/-- Settles O59: LOAD_DT keeps V, and each other kind of step is one of the cases for V. -/
theorem seedWriters : Obligations.SeedWriters := by
  unfold Obligations.SeedWriters
  intro E s t h
  cases GeneratorStep.of_stepWith h with
  | reset hrst hk hv => exact .inr (.inl ⟨hrst, hv⟩)
  | init c hacc hdec hop hk hv => exact .inr (.inr (.inl ⟨c, hacc, hop, hv⟩))
  | loadDt c hacc hop hk hv => exact .inl hv
  | block k v he hans hsk hsv hk hv => exact .inr (.inr (.inr ⟨he, hans, k, v, hsk, hsv, hv⟩))
  | unchanged hk hv => exact .inl hv

end Sys2Proof.Machine

/-! ### Faults and refusals (O37) -/

namespace Sys2Proof.Machine

open Sys2Proof

theorem blockStepWith_absentKey {E : Cipher} {s : State} (hk : s.k = none) :
    blockStepWith E s = .fault .absentKey := by
  simp [blockStepWith, hk]

theorem blockStepWith_absentSeed {E : Cipher} {s : State} {k : Bits128} (hk : s.k = some k)
    (hv : s.v = none) : blockStepWith E s = .fault .absentSeed := by
  simp [blockStepWith, hk, hv]

/-- A block step goes on, or faults on the value that is absent (R39). -/
theorem blockStepWith_next_or_fault {E : Cipher} {s : State} :
    (∃ t, blockStepWith E s = .next t) ∨
      ∃ f, blockStepWith E s = .fault f ∧
        (f = .absentKey ∧ s.k = none ∨ f = .absentSeed ∧ s.v = none) := by
  cases hk : s.k with
  | none => exact .inr ⟨_, blockStepWith_absentKey hk, .inl ⟨rfl, rfl⟩⟩
  | some k =>
    cases hv : s.v with
    | none => exact .inr ⟨_, blockStepWith_absentSeed hk hv, .inr ⟨rfl, rfl⟩⟩
    | some v => exact .inl ⟨_, blockStepWith_some E s k v hk hv⟩

/-- A step while BUSY = 1 goes on, or it is a block step. -/
theorem busyStepWith_next_or_blockStep (E : Cipher) (p : Pins) (s : State) :
    (∃ t, busyStepWith E p s = .next t) ∨
      (s.blockEnabled = true ∧ p.cphAnswer = true ∧ busyStepWith E p s = blockStepWith E s) := by
  unfold busyStepWith
  split
  · split <;> exact .inl ⟨_, rfl⟩
  · split
    · next he =>
      split
      · next ha => exact .inr ⟨he, ha, rfl⟩
      · exact .inl ⟨_, rfl⟩
    · split
      · split <;> exact .inl ⟨_, rfl⟩
      · exact .inl ⟨_, rfl⟩

/-- The three ends of a step: it goes on, it is refused since the host changed what it offers, or it is
a block step that faults. -/
theorem stepWith_ends (E : Cipher) (s : State) :
    (s.pins.rst = false ∧ s.holds s.pins.cmd = false ∧ stepWith E s = .refused .commandNotHeld) ∨
      (¬ (s.pins.rst = false ∧ s.holds s.pins.cmd = false) ∧
        ((∃ t, stepWith E s = .next t) ∨
          ∃ f, stepWith E s = .fault f ∧ s.pins.rst = false ∧ s.blockEnabled = true ∧
            s.pins.cphAnswer = true ∧ (f = .absentKey ∧ s.k = none ∨ f = .absentSeed ∧ s.v = none))) := by
  cases hr : s.pins.rst with
  | true => exact .inr ⟨by simp, .inl ⟨_, stepWith_of_reset hr⟩⟩
  | false =>
    cases hh : s.holds s.pins.cmd with
    | false => exact .inl ⟨rfl, rfl, by simp [stepWith, hr, hh]⟩
    | true =>
      refine .inr ⟨by simp, ?_⟩
      rw [stepWith_of_held E s hr hh]
      cases hb : s.busy with
      | false =>
        left
        cases hc : s.pins.cmd with
        | none => exact ⟨_, rfl⟩
        | some c => exact exec_answers (decode c) _
      | true =>
        rcases busyStepWith_next_or_blockStep E s.pins (s.advance.setPending s.pins.cmd) with
          hnext | ⟨he, ha, heq⟩
        · exact .inl hnext
        · rw [if_pos rfl, heq]
          rcases blockStepWith_next_or_fault (E := E) (s := s.advance.setPending s.pins.cmd) with
            hnext | ⟨f, hf, hwhy⟩
          · exact .inl hnext
          · exact .inr ⟨f, hf, rfl, he, ha, hwhy⟩

/-- A fault is that of a block step that reads an absent K or V. -/
theorem stepWith_fault {E : Cipher} {s : State} {f : Fault} (h : stepWith E s = .fault f) :
    s.blockEnabled = true ∧ s.pins.cphAnswer = true ∧ s.pins.rst = false ∧
      (f = .absentKey ∧ s.k = none ∨ f = .absentSeed ∧ s.v = none) := by
  rcases stepWith_ends E s with ⟨-, -, href⟩ | ⟨-, ⟨t, hnext⟩ | ⟨g, hf, hr, he, ha, hwhy⟩⟩
  · simp [href] at h
  · simp [hnext] at h
  · obtain rfl : g = f := by simpa [hf] using h
    exact ⟨he, ha, hr, hwhy⟩

/-- In a state of the invariant a stream holds its key and seed, so its block step finds them (R39). -/
theorem State.Inv.no_fault {E : Cipher} {s : State} (hinv : s.Inv) (f : Fault) :
    stepWith E s ≠ .fault f := by
  intro h
  obtain ⟨he, -, -, hwhy⟩ := stepWith_fault h
  obtain ⟨-, k, v, hk, hv⟩ := hinv.of_stream (s.blockEnabled_iff.1 he).1
  simp [hk, hv] at hwhy

theorem stepWith_refused_iff {E : Cipher} {s : State} {r : Refusal} :
    stepWith E s = .refused r ↔
      r = .commandNotHeld ∧ s.pins.rst = false ∧ s.holds s.pins.cmd = false := by
  rcases stepWith_ends E s with ⟨hr, hh, href⟩ | ⟨hnot, ⟨t, hnext⟩ | ⟨g, hf, -⟩⟩
  · simp [hr, hh, href, eq_comm]
  · simp [hnext, hnot]
  · simp [hf, hnot]

/-- When nothing is offered, what was offered before does not matter (log entry 6). -/
theorem stepWith_of_no_offer {E : Cipher} {s : State} (h : s.pins.cmd = none) (q : Option Command) :
    stepWith E s = stepWith E { s with pending := q } := by
  have hheld : ∀ u : State, u.holds none = true := by
    intro u
    cases hp : u.pending <;> simp [State.holds, hp]
  have hpins : State.pins { s with pending := q } = s.pins := rfl
  simp only [stepWith, hpins, h, hheld]
  rfl

/-- Settles O37, from the three ends of a step. -/
theorem noFaultAndOnlyHostRefused : Obligations.NoFaultAndOnlyHostRefused := by
  unfold Obligations.NoFaultAndOnlyHostRefused
  intro E s
  refine ⟨blockStepWith_absentKey, fun _ => blockStepWith_absentSeed, fun _ => stepWith_fault,
    fun hinv f => hinv.no_fault f, stepWith_of_no_offer, fun r => ?_⟩
  rw [stepWith_refused_iff, s.holds_eq_false_iff]

end Sys2Proof.Machine

/-! ### Sizes (O38) -/

namespace Sys2Proof.Machine

open Sys2Proof

theorem State.mem_env_of_pins_cmd {s : State} {c : Command} (h : s.pins.cmd = some c) :
    s.pins ∈ s.env := by
  rw [State.pins_eq] at h ⊢
  cases henv : s.env with
  | nil => simp [henv] at h
  | cons p ps => simp

/-- A started stream is NEXT_BLOCK's sixteen bytes or a GENERATE's size, which both fit. -/
theorem started_size_fits {sizeW n : Nat} {c : Command} (hw : 5 ≤ sizeW) (hc : c.fits sizeW = true)
    (h : decode c = .nextBlock ∧ n = 16 ∨ decode c = .generate n) : n < 2 ^ sizeW := by
  rcases h with ⟨-, rfl⟩ | hdec
  · calc 16 < 2 ^ 5 := by decide
      _ ≤ 2 ^ sizeW := Nat.pow_le_pow_right (by decide) hw
  · obtain ⟨-, rfl⟩ := decode_eq_generate hdec
    simpa [Command.fits] using hc

/-- While BUSY = 1 no step makes REM greater. -/
theorem rem_le_of_busyStep {E : Cipher} {p : Pins} {s t : State} (h : busyStepWith E p s = .next t) :
    t.rem ≤ s.rem := by
  rcases busyStepWith_next E p s t h with ⟨b, -, -, rfl⟩ | ⟨-, -, hstep⟩ | ⟨r, -, -, -, -, rfl⟩ | rfl
  · simp
  · obtain ⟨k, v, -, -, rfl⟩ := blockStepWith_next E s t hstep
    simp
  · simp
  · exact le_rfl

theorem rem_fits_of_exec {sizeW : Nat} {c : Command} {s t : State} (hw : 5 ≤ sizeW)
    (hc : c.fits sizeW = true) (hs : s.rem < 2 ^ sizeW) (h : exec (decode c) s = .next t) :
    t.rem < 2 ^ sizeW := by
  rcases exec_cases _ s t h with ⟨_, _, -, rfl⟩ | ⟨_, -, rfl⟩ | ⟨n, -, -, hn, rfl⟩ | ⟨_, rfl, -⟩
  · exact hs
  · exact hs
  · exact started_size_fits hw hc hn
  · exact hs

/-- Settles O38: the environment only gets shorter, and REM is 0, an accepted size, or no greater. -/
theorem sizesKeepFitting : Obligations.SizesKeepFitting := by
  unfold Obligations.SizesKeepFitting
  intro E sizeW s t hw ⟨hrem, hsizes⟩ h
  refine ⟨?_, fun p hp => hsizes p (List.mem_of_mem_tail (stepWith_env h ▸ hp))⟩
  rcases stepWith_next E s t h with
    ⟨-, rfl⟩ | ⟨-, -, ⟨c, -, hc, hexec⟩ | ⟨-, -, rfl⟩ | ⟨-, hbusy⟩⟩
  · exact Nat.two_pow_pos sizeW
  · have hfits := hsizes _ (State.mem_env_of_pins_cmd hc) c hc
    exact rem_fits_of_exec (s := s.advance.setPending none) hw hfits hrem hexec
  · exact hrem
  · exact (rem_le_of_busyStep hbusy).trans_lt hrem

end Sys2Proof.Machine

/-! ### K and V are not visible (O32) -/

namespace Sys2Proof.Machine

open Sys2Proof

/-- `s` with other values, or none, in K and V. -/
def State.withSecrets (s : State) (k v : Option Bits128) : State := { s with k := k, v := v }

@[simp] theorem State.withSecrets_outbuf (s : State) (k v : Option Bits128) :
    (s.withSecrets k v).outbuf = s.outbuf := rfl

@[simp] theorem State.withSecrets_resp (s : State) (k v : Option Bits128) :
    (s.withSecrets k v).resp = s.resp := rfl

@[simp] theorem State.withSecrets_loaded (s : State) (k v : Option Bits128) :
    (s.withSecrets k v).loaded = s.loaded := rfl

@[simp] theorem State.withSecrets_blockEnabled (s : State) (k v : Option Bits128) :
    (s.withSecrets k v).blockEnabled = s.blockEnabled := rfl

theorem State.startStream_withSecrets (s : State) (k v : Option Bits128) (n : Nat) :
    (s.withSecrets k v).startStream n = (s.startStream n).withSecrets k v := rfl

theorem State.respond_withSecrets (s : State) (k v : Option Bits128) (r : Response) :
    (s.withSecrets k v).respond r = (s.respond r).withSecrets k v := rfl

theorem State.reject_withSecrets (s : State) (k v : Option Bits128) (r : Response) :
    (s.withSecrets k v).reject r = (s.reject r).withSecrets k v := rfl

theorem State.acceptResponse_withSecrets (s : State) (k v : Option Bits128) (r : Response) :
    (s.withSecrets k v).acceptResponse r = (s.acceptResponse r).withSecrets k v := rfl

theorem State.acceptBeat_withSecrets (s : State) (k v : Option Bits128) (b : Beat) :
    (s.withSecrets k v).acceptBeat b = (s.acceptBeat b).withSecrets k v := by
  cases h : b.last <;> simp [State.acceptBeat, State.withSecrets, State.respond, h]

/-- The host sees the same in `t'` as in `t` but for the data of a waiting beat, and that data too
unless a block step was enabled. -/
structure SameView (enabled : Bool) (t t' : State) : Prop where
  but_out : { t'.hostView with out := t.hostView.out } = t.hostView
  beat_shape :
    t'.outbuf.map (fun b => (b.nbytes, b.last)) = t.outbuf.map (fun b => (b.nbytes, b.last))
  whole : enabled = false → t'.hostView = t.hostView

theorem SameView.of_withSecrets (enabled : Bool) (t : State) (k v : Option Bits128) :
    SameView enabled t (t.withSecrets k v) := ⟨rfl, rfl, fun _ => rfl⟩

/-- No command reads K or V: with others it does the same, but for what INIT writes. -/
theorem exec_withSecrets (k v : Option Bits128) {i : Instr} {s t : State} (h : exec i s = .next t) :
    ∃ k' v', exec i (s.withSecrets k v) = .next (t.withSecrets k' v') := by
  cases i with
  | init key seed => cases h; exact ⟨some key, some seed, rfl⟩
  | loadDt dt => cases h; exact ⟨k, v, rfl⟩
  | nextBlock =>
    refine ⟨k, v, ?_⟩
    simp only [exec, execNextBlock, State.withSecrets_loaded, State.startStream_withSecrets,
      State.reject_withSecrets] at h ⊢
    split at h <;> next hl => cases h; simp [hl]
  | generate n =>
    refine ⟨k, v, ?_⟩
    simp only [exec, execGenerate, State.withSecrets_loaded, State.startStream_withSecrets,
      State.respond_withSecrets, State.reject_withSecrets] at h ⊢
    split at h
    · next hl => split at h <;> next hn => cases h; simp [hl, hn]
    · next hl => cases h; simp [hl]
  | reserved0 => cases h; exact ⟨k, v, rfl⟩
  | reserved5 => cases h; exact ⟨k, v, rfl⟩
  | reserved67 b => cases h; exact ⟨k, v, rfl⟩
  | reserved8F l => cases h; exact ⟨k, v, rfl⟩

/-- A block step with another key and seed differs for the host in the data of its beat alone. -/
theorem blockStepWith_withSecrets {E : Cipher} {s t : State} {k v : Option Bits128}
    (hk : k.isSome = s.k.isSome) (hv : v.isSome = s.v.isSome) (h : blockStepWith E s = .next t) :
    ∃ t', blockStepWith E (s.withSecrets k v) = .next t' ∧ SameView true t t' := by
  obtain ⟨k₀, v₀, hk₀, hv₀, rfl⟩ := blockStepWith_next E s t h
  obtain ⟨k, rfl⟩ := Option.isSome_iff_exists.1 (hk.trans (by simp [hk₀]))
  obtain ⟨v, rfl⟩ := Option.isSome_iff_exists.1 (hv.trans (by simp [hv₀]))
  exact ⟨_, blockStepWith_some E _ k v rfl rfl, rfl, rfl, by simp⟩

/-- While BUSY = 1 no step but the block step reads K or V. -/
theorem busyStepWith_withSecrets_of_not_enabled {E : Cipher} {p : Pins} {s t : State}
    (k v : Option Bits128) (he : s.blockEnabled = false) (h : busyStepWith E p s = .next t) :
    busyStepWith E p (s.withSecrets k v) = .next (t.withSecrets k v) := by
  simp only [busyStepWith, State.withSecrets_outbuf, State.withSecrets_blockEnabled,
    State.withSecrets_resp, State.acceptBeat_withSecrets, State.acceptResponse_withSecrets, he] at h ⊢
  cases ho : s.outbuf with
  | some b =>
    simp only [ho] at h ⊢
    split at h <;> next htaken => cases h; simp [htaken]
  | none =>
    cases hresp : s.resp with
    | some r =>
      simp only [ho, hresp, Bool.false_eq_true, if_false] at h ⊢
      split at h <;> next htaken => cases h; simp [htaken]
    | none =>
      simp only [ho, hresp, Bool.false_eq_true, if_false] at h ⊢
      cases h; rfl

theorem busyStepWith_withSecrets {E : Cipher} {p : Pins} {s t : State} {k v : Option Bits128}
    (hk : k.isSome = s.k.isSome) (hv : v.isSome = s.v.isSome) (h : busyStepWith E p s = .next t) :
    ∃ t', busyStepWith E p (s.withSecrets k v) = .next t' ∧ SameView s.blockEnabled t t' := by
  cases he : s.blockEnabled with
  | false => exact ⟨_, busyStepWith_withSecrets_of_not_enabled k v he h, .of_withSecrets _ _ _ _⟩
  | true =>
    rw [busyStepWith_of_blockEnabled (s := s.withSecrets k v) he]
    rw [busyStepWith_of_blockEnabled he] at h
    split at h
    · next ha => simpa [ha] using blockStepWith_withSecrets hk hv h
    · next ha => cases h; exact ⟨s.withSecrets k v, by simp [ha], .of_withSecrets _ _ _ _⟩

/-- With other values in K and V a step still goes on, and the host sees no more than O32 allows. -/
theorem stepWith_withSecrets {E : Cipher} {s t : State} {k v : Option Bits128}
    (hk : k.isSome = s.k.isSome) (hv : v.isSome = s.v.isSome) (h : stepWith E s = .next t) :
    ∃ t', stepWith E (s.withSecrets k v) = .next t' ∧ SameView s.blockEnabled t t' := by
  have hpins : (s.withSecrets k v).pins = s.pins := rfl
  rcases stepWith_next E s t h with
    ⟨hr, rfl⟩ | ⟨hr, hh, ⟨c, hb, hc, hexec⟩ | ⟨hb, hc, rfl⟩ | ⟨hb, hbusy⟩⟩
  · exact ⟨_, stepWith_of_reset (s := s.withSecrets k v) hr, .of_withSecrets _ _ none none⟩
  · rw [stepWith_of_ready (s := s.withSecrets k v) hr hh hb, hpins, hc]
    obtain ⟨k', v', hexec'⟩ := exec_withSecrets k v hexec
    exact ⟨_, hexec', .of_withSecrets _ _ _ _⟩
  · rw [stepWith_of_ready (s := s.withSecrets k v) hr hh hb, hpins, hc]
    exact ⟨_, rfl, .of_withSecrets _ _ k v⟩
  · rw [stepWith_of_busy (s := s.withSecrets k v) hr hh hb]
    exact busyStepWith_withSecrets (s := s.advance.setPending s.pins.cmd) hk hv hbusy

/-- Settles O32: only a block step reads K and V, and they show in the data of its beat alone. -/
theorem secretsNotVisible : Obligations.SecretsNotVisible := by
  unfold Obligations.SecretsNotVisible
  intro E s t k v hk hv h
  obtain ⟨t', ht', hview⟩ := stepWith_withSecrets hk hv h
  exact ⟨t', ht', hview.but_out, hview.beat_shape, hview.whole⟩

end Sys2Proof.Machine

/-! ### Several instances (O34) -/

namespace Sys2Proof.Machine

open Sys2Proof

/-- The system goes on exactly when block `n` does alone, with the new state of `n` in its place
(R50). -/
theorem stepInstance_eq_next_iff {E : Cipher} {sys sys' : List State} {n : Fin sys.length} :
    stepInstance E sys n = .next sys' ↔ ∃ t, stepWith E sys[n] = .next t ∧ sys' = sys.set n t := by
  unfold stepInstance
  cases stepWith E sys[n] with
  | next t => simp [eq_comm]
  | fault f => simp
  | refused r => simp

/-- Settles O34: a step of the system is the step of one block alone, put in its own place. -/
theorem instancesIndependent : Obligations.InstancesIndependent := by
  unfold Obligations.InstancesIndependent
  refine fun E sys n => ⟨fun t ht => stepInstance_eq_next_iff.2 ⟨t, ht, rfl⟩, fun sys' h => ?_⟩
  obtain ⟨t, ht, rfl⟩ := stepInstance_eq_next_iff.1 h
  exact ⟨List.length_set, fun m hm => List.getElem?_set_ne hm.symm, t, ht,
    List.getElem?_set_self n.isLt⟩

end Sys2Proof.Machine

/-! ### Every accepted command answers or streams (O15) -/

namespace Sys2Proof.Machine

open Sys2Proof

/-- Settles O15: a command starts a stream in one of the four cases of `exec_cases`, and in the others
it responds. -/
theorem commandRespondsOrStreams : Obligations.CommandRespondsOrStreams := by
  unfold Obligations.CommandRespondsOrStreams
  intro i s hb
  obtain ⟨hp, hr⟩ := s.busy_eq_false_iff.1 hb
  obtain ⟨t, h⟩ := exec_answers i s
  refine ⟨t, h, (busy_of_exec h).1, ?_⟩
  rcases exec_cases i s t h with ⟨_, _, -, rfl⟩ | ⟨_, -, rfl⟩ | ⟨n, hn, hl, -, rfl⟩ | ⟨_, rfl, -⟩
  · exact .inl ⟨rfl, hp, rfl⟩
  · exact .inl ⟨rfl, hp, rfl⟩
  · exact .inr ⟨hr, rfl, hn, hl, rfl, rfl, rfl⟩
  · exact .inl ⟨rfl, hp, rfl⟩

end Sys2Proof.Machine

/-! ### Every run between ready states is whole commands (O56)

That the state is the one the accepted commands give is `bare_run_ready`. Here: each whole command adds
one response and leaves a ready state, and a run accepts no command that is not offered. -/

namespace Sys2Proof.Machine

open Sys2Proof

/-- A state of the invariant that can accept a command and has had `n` responses accepted. -/
structure State.ReadyAfter (n : Nat) (s : State) : Prop where
  inv : s.Inv
  not_busy : s.busy = false
  count : s.responses.length = n

/-- The rest of a stream leaves a ready state and one response more. -/
theorem State.ReadyAfter.of_finishStream {E : Cipher} {s : State} (hinv : s.Inv)
    (hp : s.phase = .stream) (ho : s.outbuf = none) :
    (s.finishStream E).ReadyAfter (s.responses.length + 1) := by
  obtain ⟨hr, k, v, hk, hv⟩ := hinv.of_stream hp
  obtain ⟨-, -, ⟨hkl, hvl⟩, -⟩ := hinv
  rw [finishStream_some hk hv]
  refine ⟨⟨fun _ => ⟨rfl, ho⟩, fun _ => rfl, ⟨hkl, ?_⟩, by simp [State.StreamOwes],
    by simp [State.OutbufValid, ho]⟩, by simp [State.busy, hr], by simp⟩
  simpa [hv] using hvl

/-- What is left of a command with no beat waiting ends in a ready state, with one response more. -/
theorem State.ReadyAfter.of_finish {E : Cipher} {s : State} (hinv : s.Inv) (hb : s.busy = true)
    (ho : s.outbuf = none) : (s.finish E).ReadyAfter (s.responses.length + 1) := by
  cases hr : s.resp with
  | some r =>
    rw [finish_of_resp hr]
    exact ⟨hinv.after_acceptResponse, by simp [State.busy, (hinv.of_resp hr).1], by simp⟩
  | none =>
    have hp : s.phase = .stream := by simpa [hr] using s.busy_iff.1 hb
    rw [finish_of_no_resp hr]
    exact .of_finishStream hinv hp ho

theorem exec_responses {i : Instr} {s t : State} (h : exec i s = .next t) :
    t.responses = s.responses := by
  rcases exec_cases i s t h with ⟨_, _, -, rfl⟩ | ⟨_, -, rfl⟩ | ⟨_, -, -, -, rfl⟩ | ⟨_, rfl, -⟩ <;> rfl

theorem State.ReadyAfter.wholeCommand {E : Cipher} {n : Nat} {s : State} (hs : s.ReadyAfter n)
    (i : Instr) : (wholeCommand E i s).ReadyAfter (n + 1) := by
  obtain ⟨t, h⟩ := exec_answers i s
  obtain ⟨hbt, hot⟩ := busy_of_exec h
  obtain ⟨-, -, ho, -⟩ := hs.inv.of_not_busy hs.not_busy
  rw [wholeCommand_of_exec h, ← hs.count, ← exec_responses h]
  exact .of_finish (hs.inv.after_exec hs.not_busy h) hbt (hot.trans ho)

theorem State.ReadyAfter.wholeCommands {E : Cipher} {n : Nat} {s : State} (hs : s.ReadyAfter n)
    (cs : List Command) : (wholeCommands E cs s).ReadyAfter (n + cs.length) := by
  induction cs generalizing n s with
  | nil => exact hs
  | cons c cs ih =>
    rw [List.length_cons, Nat.add_comm cs.length, ← Nat.add_assoc]
    exact ih (hs.wholeCommand (decode c))

/-- The commands offered in `m + 1` steps are the one offered now, if any, and the later ones. -/
theorem State.offered_succ {s u : State} (hu : u.env = s.env.tail) (m : Nat) :
    s.offered (m + 1) = s.pins.cmd.toList ++ u.offered m := by
  rw [State.pins_eq, State.offered, State.offered, hu]
  cases s.env with
  | nil => simp
  | cons p ps => cases hc : p.cmd <;> simp [hc]

theorem State.acceptedNow_sublist (s : State) : s.acceptedNow.toList.Sublist s.pins.cmd.toList := by
  cases hb : s.busy <;> simp [State.acceptedNow, hb]

/-- A run accepts some of the commands that it is offered, in their order. -/
theorem acceptedIn_sublist_offered (E : Cipher) (m : Nat) (s : State) :
    (acceptedIn E m s).Sublist (s.offered m) := by
  induction m generalizing s with
  | zero => simp [acceptedIn]
  | succ m ih =>
    cases hstep : stepWith E s with
    | next u =>
      rw [acceptedIn_succ hstep, State.offered_succ (stepWith_env hstep)]
      exact s.acceptedNow_sublist.append (ih u)
    | fault f => simp [acceptedIn, hstep]
    | refused r => simp [acceptedIn, hstep]

@[simp] theorem State.bare_responses (s : State) : s.bare.responses = s.responses := rfl

/-- Two states that agree but for the offer and the environment. -/
theorem State.eq_of_bare_eq {s t : State} (h : t.bare = s.bare) :
    t = { s with env := t.env, pending := t.pending } := by
  cases s
  cases t
  simpa [State.bare, State.within] using h

/-- Settles O56: the run is its accepted commands, each of which has one response. -/
theorem runsAreWholeCommands : Obligations.RunsAreWholeCommands := by
  unfold Obligations.RunsAreWholeCommands
  intro E s t m hinv hs hrst hrun ht
  have hbare : t.bare = (wholeCommands E (acceptedIn E m s) s).bare :=
    (bare_run_ready hinv hs hrst hrun ht).trans (wholeCommands_within E _ _ s)
  have hready : s.ReadyAfter s.responses.length := ⟨hinv, hs, rfl⟩
  refine ⟨acceptedIn_sublist_offered E m s, ?_, State.eq_of_bare_eq hbare⟩
  rw [← t.bare_responses, hbare]
  exact (hready.wholeCommands _).count

end Sys2Proof.Machine

/-! ### Bytes of a word and lanes of a beat (O45, O46, O47) -/

namespace Sys2Proof.Machine

open Sys2Proof

/-- Bit `j` of byte `i`, byte 0 being the most significant (R41). -/
@[simp] theorem byteOf_getElem (w : Bits128) (i j : Nat) (hj : j < 8) :
    (byteOf w i)[j] = w.getLsbD (120 - 8 * i + j) :=
  BitVec.getElem_extractLsb' hj

/-- Byte `i` as a number (R42). -/
theorem byteOf_toNat (w : Bits128) (i : Nat) :
    (byteOf w i).toNat = w.toNat / 2 ^ (8 * (15 - i)) % 256 := by
  have hplace : 120 - 8 * i = 8 * (15 - i) := by omega
  rw [byteOf, BitVec.extractLsb'_toNat, Nat.shiftRight_eq_div_pow, hplace]

theorem byteOf_xor128 (a b : Bits128) (i : Nat) :
    byteOf (xor128 a b) i = byteOf a i ^^^ byteOf b i :=
  BitVec.extractLsb'_xor

/-- A word is determined by its sixteen bytes. -/
theorem eq_of_byteOf_eq {a b : Bits128} (h : ∀ i < 16, byteOf a i = byteOf b i) : a = b := by
  refine BitVec.eq_of_getLsbD_eq fun p hp => ?_
  have hbit : p % 8 < 8 := Nat.mod_lt p (by decide)
  have hplace : 120 - 8 * (15 - p / 8) + p % 8 = p := by omega
  calc a.getLsbD p = (byteOf a (15 - p / 8))[p % 8] := by rw [byteOf_getElem, hplace]
    _ = (byteOf b (15 - p / 8))[p % 8] := by rw [h _ (by omega)]
    _ = b.getLsbD p := by rw [byteOf_getElem, hplace]

/-- The first byte given is byte 0 of the word. -/
theorem byteOf_wordOfBytes_zero (b : Byte) (bs : List Byte) :
    byteOf (wordOfBytes (b :: bs)) 0 = b := by
  refine BitVec.eq_of_getElem_eq fun j hj => ?_
  have hlow : (wordOfBytes bs).getLsbD (8 + (120 + j)) = false :=
    BitVec.getLsbD_of_ge _ _ (by omega)
  have htop : 120 + j < 128 := by omega
  simp [wordOfBytes, hlow, htop, BitVec.getLsbD_eq_getElem hj]

/-- The other bytes given follow it, each one place on. -/
theorem byteOf_wordOfBytes_succ (b : Byte) (bs : List Byte) {i : Nat} (hi : i + 1 < 16) :
    byteOf (wordOfBytes (b :: bs)) (i + 1) = byteOf (wordOfBytes bs) i := by
  refine BitVec.eq_of_getElem_eq fun j hj => ?_
  have hplace : 8 + (120 - 8 * (i + 1) + j) = 120 - 8 * i + j := by omega
  have hbelow : 120 - 8 * (i + 1) + j < 120 := by omega
  simp [wordOfBytes, hplace, hbelow]

/-- Byte `i` of the word made of some bytes is the `i`-th of them (R41). -/
theorem byteOf_wordOfBytes (bs : List Byte) {i : Nat} (hi : i < 16) :
    byteOf (wordOfBytes bs) i = bs.getD i 0 := by
  induction bs generalizing i with
  | nil => simp [wordOfBytes, byteOf]
  | cons b bs ih =>
    cases i with
    | zero => exact byteOf_wordOfBytes_zero b bs
    | succ i => exact (byteOf_wordOfBytes_succ b bs hi).trans (ih (by omega))

@[simp] theorem bytes16_length (w : Bits128) : (bytes16 w).length = 16 := by
  simp [bytes16]

theorem bytes16_getElem? (w : Bits128) {i : Nat} (hi : i < 16) :
    (bytes16 w)[i]? = some (byteOf w i) := by
  simp [bytes16, hi]

/-- A word is made of its own sixteen bytes. -/
theorem wordOfBytes_bytes16 (w : Bits128) : wordOfBytes (bytes16 w) = w :=
  eq_of_byteOf_eq fun i hi => by
    rw [byteOf_wordOfBytes _ hi, List.getD_eq_getElem?_getD, bytes16_getElem? w hi, Option.getD_some]

/-- Settles O45, from the bytes of a word. -/
theorem bigEndianBytes : Obligations.BigEndianBytes := by
  unfold Obligations.BigEndianBytes
  exact fun dt => ⟨fun i _ => byteOf_toNat dt i, bytes16_length dt, wordOfBytes_bytes16 dt,
    fun _ _ _ => rfl⟩

/-- Settles O46: the exclusive-or of words, of their bits and of their bytes. -/
theorem xorByteWise : Obligations.XorByteWise := by
  unfold Obligations.XorByteWise
  exact fun a b => ⟨BitVec.xor_comm a b, fun _ _ => BitVec.getLsbD_xor,
    fun i _ => byteOf_xor128 a b i⟩

/-- The mask has the bits of the first `n` lanes. -/
theorem laneMask_getLsbD_iff (n : Nat) {p : Nat} (hp : p < 128) :
    (laneMask n).getLsbD p = true ↔ 128 ≤ p + 8 * n := by
  have hallOnes : p - (128 - 8 * n) < 128 := by omega
  simp only [laneMask, BitVec.getLsbD_shiftLeft, BitVec.getLsbD_allOnes]
  simp [hp, hallOnes]

/-- `keep` keeps the first `n` byte lanes and makes the others 0 (R106). -/
theorem byteOf_keep (w : Bits128) (n : Nat) {i : Nat} (hi : i < 16) :
    byteOf (keep w n) i = if i < n then byteOf w i else 0 := by
  refine BitVec.eq_of_getElem_eq fun j hj => ?_
  have hlane : (laneMask n).getLsbD (120 - 8 * i + j) = decide (i < n) := by
    rw [Bool.eq_iff_iff, laneMask_getLsbD_iff n (by omega), decide_eq_true_iff]
    omega
  by_cases hn : i < n <;> simp [keep, hlane, hn]

/-- Settles O47: a beat keeps the lanes of the bytes that are still owed. -/
theorem beatLanes : Obligations.BeatLanes := by
  unfold Obligations.BeatLanes
  intro s r i hi
  rw [s.nextBeat_nbytes_toNat r]
  exact ⟨rfl, byteOf_keep r s.keptBytes hi⟩

end Sys2Proof.Machine

/-! ### The order of a stream's bytes (O50) -/

namespace Sys2Proof.Machine

open Sys2Proof

@[simp] theorem nbIter_outs_length (E : Cipher) (k v dt : Bits128) (n : Nat) :
    (nbIter E k v dt n).outs.length = n := by
  induction n generalizing v dt with
  | zero => rfl
  | succ n ih => simp [nbIter, ih]

/-- Byte `j` of a sequence of blocks is byte `j mod 16` of block `floor(j / 16)` (R44). -/
theorem flatMap_bytes16_getElem? (rs : List Bits128) (j : Nat) :
    (rs.flatMap bytes16)[j]? = rs[j / 16]?.map (byteOf · (j % 16)) := by
  induction rs generalizing j with
  | nil => simp
  | cons r rs ih =>
    rw [List.flatMap_cons]
    by_cases hj : j < 16
    · rw [List.getElem?_append_left (by simpa using hj), bytes16_getElem? r hj]
      simp [Nat.div_eq_of_lt hj, Nat.mod_eq_of_lt hj]
    · have hdiv : j / 16 = (j - 16) / 16 + 1 := by omega
      have hmod : j % 16 = (j - 16) % 16 := by omega
      rw [List.getElem?_append_right (by simpa using hj), bytes16_length, ih, hdiv, hmod,
        List.getElem?_cons_succ]

theorem div_lt_ceilDiv16 {n j : Nat} (hj : j < n) : j / 16 < ceilDiv16 n := by
  simp only [ceilDiv16]
  omega

/-- Settles O50: the stream has enough blocks for byte `j`, and `take n` does not reach it. -/
theorem streamByteOrder : Obligations.StreamByteOrder := by
  unfold Obligations.StreamByteOrder
  intro E k v dt n j hj
  have hblock : j / 16 < (nbIter E k v dt (ceilDiv16 n)).outs.length := by
    simpa using div_lt_ceilDiv16 hj
  refine ⟨_, List.getElem?_eq_getElem hblock, ?_⟩
  rw [gen, List.getElem?_take_of_lt hj, flatMap_bytes16_getElem?, List.getElem?_eq_getElem hblock]
  rfl

end Sys2Proof.Machine

/-! ### The decoder, the encoder and the numeric picture (O3, O1, O4, O5) -/

namespace Sys2Proof.Machine

open Sys2Proof

/-! #### The decoder on each row of the opcode table (R57) -/

theorem decode_reserved0 {c : Command} (h : c.op = 0b0000#4) : decode c = .reserved0 := by
  simp [decode, h]

theorem decode_init {c : Command} (h : c.op = 0b0001#4) : decode c = .init c.key c.seed := by
  simp [decode, h]

theorem decode_loadDt {c : Command} (h : c.op = 0b0010#4) : decode c = .loadDt c.dt := by
  simp [decode, h]

theorem decode_nextBlock {c : Command} (h : c.op = 0b0011#4) : decode c = .nextBlock := by
  simp [decode, h]

theorem decode_generate {c : Command} (h : c.op = 0b0100#4) : decode c = .generate c.size := by
  simp [decode, h]

theorem decode_reserved5 {c : Command} (h : c.op = 0b0101#4) : decode c = .reserved5 := by
  simp [decode, h]

theorem decode_reserved67 {c : Command} {bit : BitVec 1} (h : c.op = (Instr.reserved67 bit).opcode) :
    decode c = .reserved67 bit := by
  have hop : ∀ b, ((Instr.reserved67 b).opcode.toNat = 6 ∨ (Instr.reserved67 b).opcode.toNat = 7) ∧
      (Instr.reserved67 b).opcode.extractLsb' 0 1 = b := by decide
  obtain ⟨hrow | hrow, hbit⟩ := hop bit <;> simp [decode, h, hrow, hbit]

theorem decode_reserved8F {c : Command} {low : BitVec 3} (h : c.op = (Instr.reserved8F low).opcode) :
    decode c = .reserved8F low := by
  have hop : ∀ l, 8 ≤ (Instr.reserved8F l).opcode.toNat ∧
      (Instr.reserved8F l).opcode.extractLsb' 0 3 = l := by decide
  obtain ⟨hrow, hlow⟩ := hop low
  rw [← h] at hrow hlow
  unfold decode
  split
  case h_9 => rw [hlow]
  all_goals omega

/-- Every opcode lies in a row of the table (R67). -/
theorem op_in_table (op : BitVec 4) :
    op = 0b0000#4 ∨ op = 0b0001#4 ∨ op = 0b0010#4 ∨ op = 0b0011#4 ∨ op = 0b0100#4 ∨ op = 0b0101#4 ∨
      (∃ bit, op = (Instr.reserved67 bit).opcode) ∨ ∃ low, op = (Instr.reserved8F low).opcode := by
  revert op
  decide

/-- Only opcode 0011 decodes to NEXT_BLOCK. -/
theorem decode_eq_nextBlock {c : Command} (h : decode c = .nextBlock) : c.op = 0b0011#4 := by
  unfold decode at h
  split at h <;> cases h
  next hop => exact op_eq_of_toNat (by decide) hop

/-! #### Decoding what was encoded, and encoding what was decoded -/

@[simp] theorem encode_op (i : Instr) : (encode i).op = i.opcode := by
  cases i <;> rfl

theorem decode_encode (i : Instr) : decode (encode i) = i := by
  cases i with
  | reserved0 => exact decode_reserved0 rfl
  | init key seed => exact decode_init rfl
  | loadDt dt => exact decode_loadDt rfl
  | nextBlock => exact decode_nextBlock rfl
  | generate size => exact decode_generate rfl
  | reserved5 => exact decode_reserved5 rfl
  | reserved67 bit => exact decode_reserved67 rfl
  | reserved8F low => exact decode_reserved8F rfl

theorem fits_encode {sizeW : Nat} {i : Instr} (h : i.wellFormed sizeW = true) :
    (encode i).fits sizeW = true := by
  cases i with
  | generate size => exact h
  | _ => exact decide_eq_true (Nat.two_pow_pos sizeW)

/-- A command that reads no operand is encoded as its opcode alone (R65). -/
theorem encode_decode_of_no_operand {c : Command} (hinit : c.op ≠ 0b0001#4) (hload : c.op ≠ 0b0010#4)
    (hgen : c.op ≠ 0b0100#4) : encode (decode c) = Command.bare c.op := by
  rcases op_in_table c.op with h | h | h | h | h | h | ⟨bit, h⟩ | ⟨low, h⟩
  · rw [decode_reserved0 h, h]; rfl
  · exact absurd h hinit
  · exact absurd h hload
  · rw [decode_nextBlock h, h]; rfl
  · exact absurd h hgen
  · rw [decode_reserved5 h, h]; rfl
  · rw [decode_reserved67 h, h]; rfl
  · rw [decode_reserved8F h, h]; rfl

/-! #### The record as one number (log entry 3) -/

/-- Reading the lower of two fields side by side. -/
theorem ofNat_field {n : Nat} (a : BitVec n) (x : Nat) : BitVec.ofNat n (a.toNat + 2 ^ n * x) = a :=
  BitVec.eq_of_toNat_eq (by simp [Nat.mod_eq_of_lt a.isLt])

/-- Reading past the lower of two fields side by side. -/
theorem shiftRight_field {n : Nat} (a : BitVec n) (x : Nat) : (a.toNat + 2 ^ n * x) >>> n = x := by
  rw [Nat.shiftRight_eq_div_pow, Nat.add_mul_div_left _ _ (Nat.two_pow_pos n),
    Nat.div_eq_of_lt a.isLt, Nat.zero_add]

/-- Two fields side by side are as wide as both together. -/
theorem field_lt {n m x : Nat} (a : BitVec n) (hx : x < 2 ^ m) : a.toNat + 2 ^ n * x < 2 ^ (n + m) :=
  calc a.toNat + 2 ^ n * x < 2 ^ n * (x + 1) := by rw [Nat.mul_succ]; have := a.isLt; omega
    _ ≤ 2 ^ n * 2 ^ m := Nat.mul_le_mul_left _ hx
    _ = 2 ^ (n + m) := (Nat.pow_add 2 n m).symm

theorem ofWord_toWord (c : Command) : Command.ofWord c.toWord = c := by
  simp only [Command.ofWord, Command.toWord, ofNat_field, shiftRight_field]

theorem toWord_lt {sizeW : Nat} {c : Command} (h : c.fits sizeW = true) :
    c.toWord < 2 ^ (388 + sizeW) := by
  have hwidth : 388 + sizeW = 4 + (128 + (128 + (128 + sizeW))) := by omega
  rw [hwidth]
  exact field_lt c.op (field_lt c.key (field_lt c.seed (field_lt c.dt (of_decide_eq_true h))))

/-- A table word as wide as the port keeps the whole record. -/
theorem decodeTableWord_toWord {sizeW : Nat} {c : Command} (h : c.fits sizeW = true) :
    decodeTableWord (388 + sizeW) c.toWord = some (decode c) := by
  rw [decodeTableWord, Command.ofTableWord, Nat.mod_eq_of_lt (toWord_lt h), ofWord_toWord]

/-- Settles O3: the opcode brings back the row and its open bits, and the fields of the number do not
overlap. -/
theorem decodeEncodeRoundTrip : Obligations.DecodeEncodeRoundTrip := by
  unfold Obligations.DecodeEncodeRoundTrip
  intro sizeW i hwf
  have hfits := fits_encode hwf
  refine ⟨decode_encode i, hfits, ofWord_toWord _, ?_⟩
  rw [decodeTableWord_toWord hfits, decode_encode]

/-- Settles O4: INIT, LOAD_DT and GENERATE keep the operands they read, every other command has none. -/
theorem encodeDecodeCanonical : Obligations.EncodeDecodeCanonical := by
  unfold Obligations.EncodeDecodeCanonical
  intro c
  by_cases hinit : c.op = 0b0001#4
  · simp [decode_init hinit, encode, Command.bare, Instr.opcode, hinit]
  by_cases hload : c.op = 0b0010#4
  · simp [decode_loadDt hload, encode, Command.bare, Instr.opcode, hload]
  by_cases hgen : c.op = 0b0100#4
  · simp [decode_generate hgen, encode, Command.bare, Instr.opcode, hgen]
  · simp [encode_decode_of_no_operand hinit hload hgen, Command.bare, hinit, hload, hgen]

/-- Settles O5, by evaluation of the eight words. -/
theorem tableWordsDecode : Obligations.TableWordsDecode := by
  unfold Obligations.TableWordsDecode
  decide

/-! #### The opcode map, and which commands need LOADED (O1) -/

/-- While LOADED = 0 exactly NEXT_BLOCK and GENERATE are answered NOT_LOADED: INIT and LOAD_DT are
answered OK and the reserved opcodes ILLEGAL_OP (R57, R124). -/
theorem exec_eq_notLoaded_iff {s : State} (hl : s.loaded = false) (i : Instr) :
    exec i s = .next { s with resp := some .notLoaded } ↔ i = .nextBlock ∨ ∃ n, i = .generate n := by
  have hother : ∀ {t : State} {r : Response}, t.resp = some r → r ≠ .notLoaded →
      (.next t : Outcome) ≠ .next { s with resp := some .notLoaded } := by
    rintro t r ht hr heq
    obtain rfl := Host.Outcome.next.inj heq
    exact hr (Option.some.inj ht).symm
  cases i with
  | nextBlock => simp [exec, execNextBlock, hl, State.reject, State.respond]
  | generate n => simp [exec, execGenerate, hl, State.reject, State.respond]
  | init key seed => exact iff_of_false (hother rfl (by decide)) (by simp)
  | loadDt dt => exact iff_of_false (hother rfl (by decide)) (by simp)
  | reserved0 => exact iff_of_false (hother rfl (by decide)) (by simp)
  | reserved5 => exact iff_of_false (hother rfl (by decide)) (by simp)
  | reserved67 bit => exact iff_of_false (hother rfl (by decide)) (by simp)
  | reserved8F low => exact iff_of_false (hother rfl (by decide)) (by simp)

/-- The opcodes from 8 up, with their open bits counted from 8. -/
theorem opcode_reserved8F_of_le {op : BitVec 4} (h : 8 ≤ op.toNat) :
    op = (Instr.reserved8F (BitVec.ofNat 3 (op.toNat - 8))).opcode := by
  revert op
  decide

/-- Settles O1: the rows of the decoder, read in both directions for the two that need LOADED. -/
theorem opcodeMapDecodes : Obligations.OpcodeMapDecodes := by
  unfold Obligations.OpcodeMapDecodes
  intro c
  refine ⟨decode_reserved0, decode_init, decode_loadDt, decode_nextBlock, decode_generate,
    decode_reserved5, decode_reserved67 (bit := 0), decode_reserved67 (bit := 1),
    fun h => decode_reserved8F (opcode_reserved8F_of_le h), fun s hl => ?_, fun s h => ?_⟩
  · rw [exec_eq_notLoaded_iff hl]
    constructor
    · rintro (h | ⟨n, h⟩)
      · exact .inl (decode_eq_nextBlock h)
      · exact .inr (decode_eq_generate h).1
    · rintro (h | h)
      · exact .inl (decode_nextBlock h)
      · exact .inr ⟨_, decode_generate h⟩
  · rw [decode_reserved0 h]
    rfl

end Sys2Proof.Machine

/-! ### A step that accepts a command runs what it decodes to (O16, O17, O2, O6, O7) -/

namespace Sys2Proof.Machine

open Sys2Proof

theorem State.holds_of_not_pending {s : State} (h : s.pending = none) (o : Option Command) :
    s.holds o = true := by
  simp [State.holds, h]

/-- A host that offers nothing breaks no duty (R145, log entry 6). -/
theorem State.holds_none (s : State) : s.holds none = true := by
  cases h : s.pending <;> simp [State.holds, h]

theorem stepWith_of_accepts {E : Cipher} {s : State} {c : Command} (h : s.Accepts c) :
    stepWith E s = exec (decode c) (s.advance.setPending none) := by
  obtain ⟨⟨hrst, hheld⟩, hcmd, hb⟩ := h
  rw [stepWith_of_ready hrst hheld hb, hcmd]
  rfl

/-- Settles O16: the step that accepts a command. -/
theorem stepRunsDecodedCommand : Obligations.StepRunsDecodedCommand := by
  unfold Obligations.StepRunsDecodedCommand
  exact fun _ _ hacc => stepWith_of_accepts hacc

/-! #### A placed word (log entry 3) -/

theorem State.madeReady_of_not_busy {s : State} (h : s.busy = false) : s.madeReady = s := by
  simp [State.madeReady, h]

theorem State.madeReady_of_busy {s : State} (h : s.busy = true) :
    s.madeReady = { s with phase := .idle, rem := 0, outbuf := none, resp := none } := by
  simp [State.madeReady, h]

@[simp] theorem State.madeReady_busy (s : State) : s.madeReady.busy = false := by
  cases h : s.busy with
  | true => rw [madeReady_of_busy h]; rfl
  | false => rw [madeReady_of_not_busy h, h]

@[simp] theorem State.madeReady_env (s : State) : s.madeReady.env = s.env := by
  cases h : s.busy with
  | true => rw [madeReady_of_busy h]
  | false => rw [madeReady_of_not_busy h]

/-- A ready state accepts the command that is newly offered to it. -/
theorem State.offerNext_accepts {s : State} (h : s.busy = false) (c : Command) :
    (s.offerNext c).Accepts c :=
  ⟨⟨rfl, holds_of_not_pending rfl _⟩, rfl, h⟩

/-- Settles O17: the placed word's command is accepted in the very next step. -/
theorem placedWordRuns : Obligations.PlacedWordRuns := by
  unfold Obligations.PlacedWordRuns
  intro s nbits w
  refine ⟨⟨_, rfl, ?_⟩, s.madeReady_busy, State.madeReady_of_not_busy⟩
  have hstep := stepRunsDecodedCommand _ _ (State.offerNext_accepts s.madeReady_busy
    (Command.ofTableWord nbits w))
  rw [State.offerNext_env, List.tail_cons, State.madeReady_env] at hstep
  exact hstep

/-! #### Operands that a command does not read (O2) -/

/-- The decoder sees the opcode and the operands that the opcode's row reads, and nothing else (R56). -/
theorem decode_congr {c c' : Command} (hop : c.op = c'.op)
    (hinit : c.op = 0b0001#4 → c.key = c'.key ∧ c.seed = c'.seed)
    (hload : c.op = 0b0010#4 → c.dt = c'.dt) (hgen : c.op = 0b0100#4 → c.size = c'.size) :
    decode c = decode c' := by
  rcases op_in_table c.op with h | h | h | h | h | h | ⟨bit, h⟩ | ⟨low, h⟩ <;>
    have h' := hop.symm.trans h
  · rw [decode_reserved0 h, decode_reserved0 h']
  · rw [decode_init h, decode_init h', (hinit h).1, (hinit h).2]
  · rw [decode_loadDt h, decode_loadDt h', hload h]
  · rw [decode_nextBlock h, decode_nextBlock h']
  · rw [decode_generate h, decode_generate h', hgen h]
  · rw [decode_reserved5 h, decode_reserved5 h']
  · rw [decode_reserved67 h, decode_reserved67 h']
  · rw [decode_reserved8F h, decode_reserved8F h']

/-- The step of a ready block that is offered something, which the step sees only decoded. -/
theorem stepWith_of_offer {E : Cipher} {s : State} {p : Pins} {ps : List Pins} (c : Command)
    (hb : s.busy = false) (hpend : s.pending = none) :
    stepWith E { s with env := { p with cmd := some c } :: ps } =
      if p.rst then .next { s with env := ps }.applyReset
      else exec (decode c) ({ s with env := ps }.setPending none) := by
  split
  · next hrst => exact stepWith_of_reset hrst
  · next hrst =>
    exact stepWith_of_accepts
      ⟨⟨Bool.eq_false_iff.2 hrst, State.holds_of_not_pending hpend _⟩, rfl, hb⟩

/-- Settles O2: a step sees of the offered command only what it decodes to. -/
theorem unreadOperandsIgnored : Obligations.UnreadOperandsIgnored := by
  unfold Obligations.UnreadOperandsIgnored
  intro c c' hop hinit hload hgen
  have hdec := decode_congr hop hinit hload hgen
  refine ⟨hdec, fun E s p ps hb hpend => ?_⟩
  rw [stepWith_of_offer c hb hpend, stepWith_of_offer c' hb hpend, hdec]

/-! #### The response codes (O6) -/

/-- Code 11 is reserved and is no response's (R62). -/
theorem Response.code_ne_reserved (r : Response) : r.code ≠ 0b11#2 := by
  cases r <;> decide

/-- Settles O6: the response port shows the code of a response or nothing. -/
theorem responseCodes : Obligations.ResponseCodes := by
  unfold Obligations.ResponseCodes
  refine ⟨rfl, rfl, rfl, fun s h => ?_⟩
  obtain ⟨r, -, hcode⟩ := Option.map_eq_some_iff.1 h
  exact r.code_ne_reserved hcode

/-! #### SETUP (O7) -/

theorem runWith_of_next {E : Cipher} {m : Nat} {s u : State} (h : stepWith E s = .next u) :
    runWith E (m + 1) s = runWith E m u := by
  simp [runWith, h]

theorem exec_init (key seed : Bits128) (s : State) :
    exec (.init key seed) s =
      .next { s with k := some key, v := some seed, dt := 0, loaded := true, resp := some .ok } := rfl

theorem exec_loadDt (dt : Bits128) (s : State) :
    exec (.loadDt dt) s = .next { s with dt := dt, resp := some .ok } := rfl

/-- A pending response that the host takes, with nothing offered: the command is over (R147). -/
theorem stepWith_acceptResponse {E : Cipher} {s : State} {r : Response} (hrst : s.pins.rst = false)
    (hcmd : s.pins.cmd = none) (hready : s.pins.rspReady = true) (hphase : s.phase = .idle)
    (hout : s.outbuf = none) (hresp : s.resp = some r) :
    stepWith E s = .next ((s.advance.setPending none).acceptResponse r) := by
  have hheld : s.holds s.pins.cmd = true := hcmd ▸ s.holds_none
  have hbusy : s.busy = true := s.busy_iff.2 (.inr (by simp [hresp]))
  rw [stepWith_of_busy hrst hheld hbusy, hcmd]
  simp [busyStepWith, State.blockEnabled, hphase, hout, hresp, hready]

/-- A ready block is offered a command, the command responds at once, and the host takes the response:
two steps later the block is where `exec` left it, with the response delivered. -/
theorem runWith_answered {E : Cipher} {m : Nat} {s t : State} {i : Instr} {r : Response}
    {ps : List Pins} (henv : s.env = { cmd := some (encode i) } :: { rspReady := true } :: ps)
    (hb : s.busy = false) (hpend : s.pending = none)
    (hexec : exec i (s.advance.setPending none) = .next t)
    (hphase : t.phase = .idle) (hout : t.outbuf = none) (hresp : t.resp = some r) :
    runWith E (m + 2) s =
      runWith E m
        { t with resp := none, responses := t.responses ++ [r], pending := none, env := ps } := by
  have hpins := s.pins_cons _ _ henv
  have hacc : s.Accepts (encode i) :=
    ⟨⟨by rw [hpins], State.holds_of_not_pending hpend _⟩, by rw [hpins], hb⟩
  have htenv : t.env = { rspReady := true } :: ps := by
    rw [exec_env hexec, State.setPending_env, State.advance_env, henv, List.tail_cons]
  have htpins := t.pins_cons _ _ htenv
  have hanswer := stepWith_acceptResponse (E := E) (by rw [htpins]) (by rw [htpins])
    (by rw [htpins]) hphase hout hresp
  have haccept : stepWith E s = .next t := by rw [stepWith_of_accepts hacc, decode_encode, hexec]
  rw [runWith_of_next haccept, runWith_of_next hanswer]
  simp [State.acceptResponse, State.advance, State.setPending, htenv]

/-- Settles O7: INIT and then LOAD_DT are each answered at once (R66, R75). -/
theorem setupBuildsInitialState : Obligations.SetupBuildsInitialState := by
  unfold Obligations.SetupBuildsInitialState
  intro E s key seed d c₁ c₂ hlist hinv hb hpend henv
  obtain ⟨rfl, rfl⟩ : encode (.init key seed) = c₁ ∧ encode (.loadDt d) = c₂ := by
    simpa [Line.assemble] using hlist
  obtain ⟨hphase, -, hout, hresp⟩ := hinv.of_not_busy hb
  calc runWith E 4 s
    _ = runWith E 2 { s with
          k := some key, v := some seed, dt := 0, loaded := true, resp := none, pending := none
          responses := s.responses ++ [.ok]
          env := [{ cmd := some (encode (.loadDt d)) }, { rspReady := true }] } :=
        Eq.trans (runWith_answered henv hb hpend (exec_init key seed _) hphase hout rfl) rfl
    _ = runWith E 0 { s with
          k := some key, v := some seed, dt := d, loaded := true, resp := none, pending := none
          responses := s.responses ++ [.ok] ++ [.ok], env := [] } :=
        Eq.trans (runWith_answered rfl ((State.busy_eq_false_iff _).2 ⟨hphase, rfl⟩) rfl
          (exec_loadDt d _) hphase hout rfl) rfl
    _ = _ := by simp [runWith, hresp, hpend]

end Sys2Proof.Machine

/-! ### INIT and LOAD_DT (O8, O9) -/

namespace Sys2Proof.Machine

open Sys2Proof

/-! #### BUSY from a command's response to its acceptance (R29, R147) -/

theorem State.busy_of_resp {s : State} {r : Response} (h : s.resp = some r) : s.busy = true :=
  s.busy_iff.2 (.inr (by rw [h, Option.isSome_some]))

theorem State.acceptResponse_not_busy {s : State} (h : s.phase = .idle) (r : Response) :
    (s.acceptResponse r).busy = false :=
  (State.busy_eq_false_iff _).2 ⟨h, s.acceptResponse_resp r⟩

theorem State.status_of_busy_of_loaded {s : State} (hb : s.busy = true) (hl : s.loaded = true) :
    s.status = 0x03#8 := by
  rw [State.status, hb, hl]
  rfl

theorem State.status_of_not_busy_of_loaded {s : State} (hb : s.busy = false)
    (hl : s.loaded = true) : s.status = 0x02#8 := by
  rw [State.status, hb, hl]
  rfl

/-- Settles O8: INIT loads the generator and responds, so STATUS shows BUSY and LOADED, and LOADED
alone once the response is taken (R70). -/
theorem initConstructsGenerator : Obligations.InitConstructsGenerator := by
  unfold Obligations.InitConstructsGenerator
  intro key seed s
  refine ⟨?decodes, _, exec_init key seed s, rfl, ?status, rfl, fun hidle => ?accepted⟩
  case decodes =>
    rintro c hop rfl rfl
    exact decode_init hop
  case status => exact State.status_of_busy_of_loaded (State.busy_of_resp rfl) rfl
  case accepted =>
    exact State.status_of_not_busy_of_loaded (State.acceptResponse_not_busy hidle .ok) rfl

/-- Settles O9: LOAD_DT writes DT and responds, so LOADED stays and BUSY holds until the response is
taken (R73). -/
theorem loadDtSetsCounter : Obligations.LoadDtSetsCounter := by
  unfold Obligations.LoadDtSetsCounter
  intro dt s
  refine ⟨?decodes, _, exec_loadDt dt s, rfl, rfl, ?busy, State.status_getLsbD _ 1,
    fun hidle => ?accepted⟩
  case decodes =>
    rintro c hop rfl
    exact decode_loadDt hop
  case busy => exact (State.status_getLsbD _ 0).trans (State.busy_of_resp rfl)
  case accepted =>
    exact (State.status_getLsbD _ 0).trans (State.acceptResponse_not_busy hidle .ok)

end Sys2Proof.Machine

/-! ### The block function, its corner cases and the counter's wrap (O40, O41, O42) -/

namespace Sys2Proof.Machine

open Sys2Proof

theorem nb_out (E : Cipher) (k v dt : Bits128) : (nb E k v dt).out = E k (E k dt ^^^ v) := rfl

theorem nb_seed (E : Cipher) (k v dt : Bits128) :
    (nb E k v dt).seed = E k ((nb E k v dt).out ^^^ E k dt) := rfl

@[simp] theorem nb_dt (E : Cipher) (k v dt : Bits128) : (nb E k v dt).dt = dt + 1 := rfl

theorem nbCalls_eq (E : Cipher) (k v dt : Bits128) :
    nbCalls E k v dt =
      [⟨k, dt⟩, ⟨k, E k dt ^^^ v⟩, ⟨k, (nb E k v dt).out ^^^ E k dt⟩] := rfl

theorem nbDt_toNat (dt : Bits128) : (nbDt dt).toNat = (dt.toNat + 1) % 2 ^ 128 :=
  BitVec.toNat_add dt 1

/-- Settles O40, from the two encryptions and the increment of one block. -/
theorem blockFunction : Obligations.BlockFunction := by
  unfold Obligations.BlockFunction
  intro E k v dt
  exact ⟨nb_out E k v dt, nb_seed E k v dt, nb_dt E k v dt, nbCalls_eq E k v dt⟩

/-- Settles O41: equal words cancel in the XOR, and a zero word leaves the other as it is (R96). -/
theorem blockCornerCases : Obligations.BlockCornerCases := by
  unfold Obligations.BlockCornerCases
  intro E k v dt
  refine ⟨fun hv => ?_, fun hv => ?_, fun hout => ?_⟩
  · simp [nb_out, hv]
  · simp [nb_out, hv]
  · simp [nb_seed, hout]

/-- Settles O42: the increment of the maximum is 0, and the blocks that follow read nothing else of
the counter (R93). -/
theorem counterWraps : Obligations.CounterWraps := by
  unfold Obligations.CounterWraps
  intro E k v
  have hwrap : (nb E k v 0xffffffffffffffffffffffffffffffff#128).dt = 0 := by
    rw [nb_dt]
    decide
  exact ⟨rfl, hwrap, fun n => by rw [hwrap], nbDt_toNat⟩

end Sys2Proof.Machine

/-! ### Blocks in a row and the counter's period (O43, O44) -/

namespace Sys2Proof.Machine

open Sys2Proof

/-- The counter after `n` blocks, as a word (R92). -/
theorem nbIter_dt (E : Cipher) (k v dt : Bits128) (n : Nat) :
    (nbIter E k v dt n).dt = dt + BitVec.ofNat 128 n := by
  induction n generalizing v dt with
  | zero => exact (BitVec.add_zero dt).symm
  | succ n ih =>
    calc (nbIter E k v dt (n + 1)).dt
        = dt + 1 + BitVec.ofNat 128 n := ih (nb E k v dt).seed (nb E k v dt).dt
      _ = dt + BitVec.ofNat 128 (n + 1) := by
        rw [BitVec.ofNat_add, BitVec.add_assoc, BitVec.add_comm 1]
        rfl

theorem nbIter_dt_toNat (E : Cipher) (k v dt : Bits128) (n : Nat) :
    (nbIter E k v dt n).dt.toNat = (dt.toNat + n) % 2 ^ 128 := by
  rw [nbIter_dt, BitVec.toNat_add, BitVec.toNat_ofNat, Nat.add_mod_mod]

/-- `n + n'` blocks are `n` blocks and then `n'` from the seed and counter these leave (R92). -/
theorem nbIter_add (E : Cipher) (k v dt : Bits128) (n n' : Nat) :
    nbIter E k v dt (n + n') =
      ⟨(nbIter E k v dt n).outs ++
          (nbIter E k (nbIter E k v dt n).seed (nbIter E k v dt n).dt n').outs,
        (nbIter E k (nbIter E k v dt n).seed (nbIter E k v dt n).dt n').seed,
        (nbIter E k (nbIter E k v dt n).seed (nbIter E k v dt n).dt n').dt⟩ := by
  induction n generalizing v dt with
  | zero => rw [Nat.zero_add]; rfl
  | succ n ih => rw [Nat.add_right_comm, nbIter, ih]; rfl

/-- Settles O43: the counter and the composition, each by induction on the first number of blocks. -/
theorem blocksAdvanceCounter : Obligations.BlocksAdvanceCounter := by
  unfold Obligations.BlocksAdvanceCounter
  intro E k v dt n n'
  exact ⟨nbIter_dt_toNat E k v dt n, nbIter_outs_length E k v dt n, rfl, nbIter_add E k v dt n n'⟩

/-- The counter reaches `x` first when the distance from `dt` to `x` has been run (R94). -/
theorem nbIter_dt_eq_iff (E : Cipher) (k v dt x : Bits128) {m : Nat} (hm : m < 2 ^ 128) :
    (nbIter E k v dt m).dt = x ↔ m = (x - dt).toNat := by
  have hword : BitVec.ofNat 128 m = x - dt ↔ m = (x - dt).toNat := by
    rw [← BitVec.toNat_inj, BitVec.toNat_ofNat, Nat.mod_eq_of_lt hm]
  rw [nbIter_dt, ← hword, eq_sub_iff_add_eq']

/-- Settles O44: the number of blocks is the distance from DT to `x`. -/
theorem counterPeriod : Obligations.CounterPeriod := by
  unfold Obligations.CounterPeriod
  intro E k v dt x
  have hdistance : (x - dt).toNat < 2 ^ 128 := (x - dt).isLt
  exact ⟨(x - dt).toNat, hdistance, (nbIter_dt_eq_iff E k v dt x hdistance).2 rfl,
    fun m hm hx => (nbIter_dt_eq_iff E k v dt x hm).1 hx⟩

end Sys2Proof.Machine

/-! ### A cipher that is silent, and the steps that call the cipher (O26, O28) -/

namespace Sys2Proof.Machine

open Sys2Proof

/-- What held of the environment's coming pins holds of the next step's and of the later ones. -/
theorem State.pins_of_take_succ {P : Pins → Prop} {s : State} {m : Nat} (hdefault : P {})
    (h : ∀ p ∈ s.env.take (m + 1), P p) : P s.pins ∧ ∀ p ∈ s.env.tail.take m, P p := by
  rw [State.pins_eq]
  cases henv : s.env with
  | nil => simpa using hdefault
  | cons p ps => simpa [henv] using h

/-- A block that waits for as long as the pins are such as `P` says keeps its state, but for the offer
and the environment. -/
theorem runWith_waits {E : Cipher} {P : Pins → Prop} {s t : State} {m : Nat} (hdefault : P {})
    (hwait : ∀ u u', u.bare = s.bare → P u.pins → stepWith E u = .next u' → u'.bare = u.bare)
    (hpins : ∀ p ∈ s.env.take m, P p) (h : runWith E m s = .next t) : t.bare = s.bare := by
  induction m generalizing s with
  | zero => cases h; rfl
  | succ m ih =>
    obtain ⟨u, hstep, hrun⟩ := runWith_succ h
    obtain ⟨hnow, hlater⟩ := State.pins_of_take_succ hdefault hpins
    have hu : u.bare = s.bare := hwait s u rfl hnow hstep
    rw [← stepWith_env hstep] at hlater
    exact (ih (fun w w' hw => hwait w w' (hw.trans hu)) hlater hrun).trans hu

@[simp] theorem State.bare_blockEnabled (s : State) : s.bare.blockEnabled = s.blockEnabled := rfl

/-- What a step of a block in its block step can do without reset: the block step once the cipher has
answered, and nothing before (R90, R102). -/
theorem stepWith_next_of_blockEnabled {E : Cipher} {s t : State} (hrst : s.pins.rst = false)
    (he : s.blockEnabled = true) (h : stepWith E s = .next t) :
    if s.pins.cphAnswer then blockStepWith E (s.advance.setPending s.pins.cmd) = .next t
    else t = s.advance.setPending s.pins.cmd := by
  have hbusy : s.busy = true := s.busy_iff.2 (.inl (s.blockEnabled_iff.1 he).1)
  rcases stepWith_next E s t h with
    ⟨hr, -⟩ | ⟨-, -, ⟨c, hb, -⟩ | ⟨hb, -⟩ | ⟨-, hstep⟩⟩
  · simp [hrst] at hr
  · simp [hbusy] at hb
  · simp [hbusy] at hb
  · rw [busyStepWith_of_blockEnabled (s := s.advance.setPending s.pins.cmd) he] at hstep
    split at hstep
    · next hans => rwa [if_pos hans]
    · next hans => rw [if_neg hans]; cases hstep; rfl

/-- Settles O26: a step without a reset and without an answer waits, and so the run does. -/
theorem silentCipherWaits : Obligations.SilentCipherWaits := by
  unfold Obligations.SilentCipherWaits
  intro E m s t he hrst hsilent hrun
  refine State.eq_of_bare_eq (runWith_waits (P := fun p => p.rst = false ∧ p.cphAnswer = false)
    ⟨rfl, rfl⟩ ?_ (fun p hp => ⟨hrst p hp, hsilent p hp⟩) hrun)
  rintro u u' hu ⟨hr, ha⟩ hstep
  have heu : u.blockEnabled = true := by rw [← u.bare_blockEnabled, hu, s.bare_blockEnabled, he]
  obtain rfl : u' = u.advance.setPending u.pins.cmd := by
    simpa [ha] using stepWith_next_of_blockEnabled hr heu hstep
  exact u.bare_advance_setPending _

theorem exec_calls {i : Instr} {s t : State} (h : exec i s = .next t) : t.calls = s.calls := by
  rcases exec_cases i s t h with ⟨_, _, -, rfl⟩ | ⟨_, -, rfl⟩ | ⟨_, -, -, -, rfl⟩ | ⟨_, rfl, -⟩ <;> rfl

/-- While BUSY = 1 only the block step of a cipher that has answered calls the cipher (R88). -/
theorem busyStepWith_calls {E : Cipher} {p : Pins} {s t : State}
    (hno : ¬ (s.blockEnabled = true ∧ p.cphAnswer = true)) (h : busyStepWith E p s = .next t) :
    t.calls = s.calls := by
  rcases busyStepWith_next E p s t h with ⟨b, -, -, rfl⟩ | ⟨he, hans, -⟩ | ⟨r, -, -, -, -, rfl⟩ | rfl
  · exact s.acceptBeat_calls b
  · exact absurd ⟨he, hans⟩ hno
  · rfl
  · rfl

/-- A step that does not complete a block step makes no cipher call (R88). -/
theorem stepWith_calls {E : Cipher} {s t : State}
    (hno : ¬ (s.pins.rst = false ∧ s.blockEnabled = true ∧ s.pins.cphAnswer = true))
    (h : stepWith E s = .next t) : t.calls = s.calls := by
  rcases stepWith_next E s t h with
    ⟨-, rfl⟩ | ⟨hrst, -, ⟨c, -, -, hexec⟩ | ⟨-, -, rfl⟩ | ⟨-, hbusy⟩⟩
  · rfl
  · exact exec_calls (s := s.advance.setPending none) hexec
  · rfl
  · exact busyStepWith_calls (s := s.advance.setPending s.pins.cmd)
      (fun hcall => hno ⟨hrst, hcall⟩) hbusy

/-- Settles O28: a completed block step records the three calls of NB, and no other kind of step
touches CALLS. -/
theorem cipherCallsOnlyInBlockSteps : Obligations.CipherCallsOnlyInBlockSteps := by
  unfold Obligations.CipherCallsOnlyInBlockSteps
  intro E s t h
  split
  · next hcall =>
    obtain ⟨hrst, he, hans⟩ := hcall
    have hstep := stepWith_next_of_blockEnabled hrst he h
    rw [if_pos hans] at hstep
    obtain ⟨k, v, hk, hv, rfl⟩ := blockStepWith_next E _ t hstep
    exact ⟨k, v, hk, hv, rfl, rfl, rfl⟩
  · next hno => exact stepWith_calls hno h

end Sys2Proof.Machine

/-! ### NEXT_BLOCK (O10) -/

namespace Sys2Proof.Machine

open Sys2Proof

theorem exec_nextBlock_of_loaded {s : State} (h : s.loaded = true) :
    exec .nextBlock s = .next (s.startStream 16) := by
  simp [exec, execNextBlock, h]

theorem exec_nextBlock_of_not_loaded {s : State} (h : s.loaded = false) :
    exec .nextBlock s = .next { s with resp := some .notLoaded } := by
  simp [exec, execNextBlock, State.reject, State.respond, h]

/-- NEXT_BLOCK is GENERATE 16, since 16 is not 0 (R97). -/
theorem exec_nextBlock_eq_generate (s : State) : exec .nextBlock s = exec (.generate 16) s := by
  simp [exec, execNextBlock, execGenerate]

/-- All sixteen lanes are kept of a whole block. -/
@[simp] theorem keep_sixteen (w : Bits128) : keep w 16 = w := by
  have hmask : laneMask 16 = BitVec.allOnes 128 := by decide
  rw [keep, hmask, BitVec.and_allOnes]

/-- The block step that owes a whole block emits it unchanged, as the last beat (R97, R102). -/
theorem State.nextBeat_of_rem_sixteen {s : State} (h : s.rem = 16) (r : Bits128) :
    s.nextBeat r = ⟨r, 16#5, true⟩ := by
  simp [s.nextBeat_eq, h]

/-- The block step of a stream of sixteen bytes (R102). -/
theorem blockStepWith_of_rem_sixteen {E : Cipher} {s : State} {k v : Bits128} (hk : s.k = some k)
    (hv : s.v = some v) (hrem : s.rem = 16) :
    blockStepWith E s =
      .next { s with
        rem := 0, v := some (nb E k v s.dt).seed, dt := (nb E k v s.dt).dt
        outbuf := some ⟨(nb E k v s.dt).out, 16#5, true⟩
        calls := s.calls ++ nbCalls E k v s.dt } := by
  rw [blockStepWith_some E s k v hk hv, State.commitBlock, State.nextBeat_of_rem_sixteen hrem]
  simp [State.emitBeat, State.recordCalls, State.keptBytes, hrem]

/-- The last beat of a stream ends the command with OK (R104). -/
theorem State.acceptBeat_of_last {b : Beat} (h : b.last = true) (s : State) :
    s.acceptBeat b =
      { s with phase := .idle, outbuf := none, resp := some .ok, beats := s.beats ++ [b] } := by
  simp [State.acceptBeat, State.respond, h]

/-- Settles O10: NEXT_BLOCK starts a stream of sixteen bytes, whose one block step emits its last
beat. -/
theorem nextBlockProducesOneBlock : Obligations.NextBlockProducesOneBlock := by
  unfold Obligations.NextBlockProducesOneBlock
  intro E s k v
  refine ⟨fun c hop => decode_nextBlock hop, exec_nextBlock_eq_generate s,
    exec_nextBlock_of_not_loaded, fun hl hk hv => ?_⟩
  have hblock := blockStepWith_of_rem_sixteen (E := E) (s := s.startStream 16) hk hv rfl
  have hbeat := State.acceptBeat_of_last (b := ⟨(nb E k v s.dt).out, 16#5, true⟩) rfl
  exact ⟨_, _, _, exec_nextBlock_of_loaded hl, rfl, rfl, hblock, rfl, rfl, hbeat _, rfl,
    State.busy_of_resp rfl, State.acceptResponse_not_busy rfl .ok⟩

end Sys2Proof.Machine

/-! ### GEN as a function: length, block multiples, requests in a row (O48, O49, O51, O52) -/

namespace Sys2Proof.Machine

open Sys2Proof

theorem gen_stream (E : Cipher) (k v dt : Bits128) (n : Nat) :
    (gen E k v dt n).stream = ((nbIter E k v dt (ceilDiv16 n)).outs.flatMap bytes16).take n := rfl

theorem ceilDiv16_mul (m : Nat) : ceilDiv16 (16 * m) = m := by
  simp only [ceilDiv16]
  omega

/-- The blocks of a whole number of blocks and some more bytes are counted apart (R109). -/
theorem ceilDiv16_add_of_mod_eq_zero {n₁ : Nat} (h : n₁ % 16 = 0) (n₂ : Nat) :
    ceilDiv16 (n₁ + n₂) = ceilDiv16 n₁ + ceilDiv16 n₂ := by
  simp only [ceilDiv16]
  omega

theorem ceilDiv16_mono {n n' : Nat} (h : n ≤ n') : ceilDiv16 n ≤ ceilDiv16 n' := by
  simp only [ceilDiv16]
  omega

theorem flatMap_bytes16_length (rs : List Bits128) : (rs.flatMap bytes16).length = 16 * rs.length := by
  simp [List.length_flatMap, Nat.mul_comm]

/-- The blocks of a request hold all the bytes that it asks for (R107). -/
theorem le_length_blockBytes (E : Cipher) (k v dt : Bits128) (n : Nat) :
    n ≤ ((nbIter E k v dt (ceilDiv16 n)).outs.flatMap bytes16).length := by
  rw [flatMap_bytes16_length, nbIter_outs_length, ceilDiv16]
  omega

theorem gen_stream_length (E : Cipher) (k v dt : Bits128) (n : Nat) :
    (gen E k v dt n).stream.length = n := by
  rw [gen_stream, List.length_take, Nat.min_eq_left (le_length_blockBytes E k v dt n)]

/-- Settles O48: `take n` finds `n` bytes in the blocks. -/
theorem exactLength : Obligations.ExactLength := by
  unfold Obligations.ExactLength
  exact gen_stream_length

/-- A request of whole blocks takes every byte of them (R108). -/
theorem gen_stream_mul (E : Cipher) (k v dt : Bits128) (m : Nat) :
    (gen E k v dt (16 * m)).stream = (nbIter E k v dt m).outs.flatMap bytes16 := by
  rw [gen_stream, ceilDiv16_mul, List.take_of_length_le]
  rw [flatMap_bytes16_length, nbIter_outs_length]

/-- Settles O49: the blocks of `16 m` bytes hold no byte more. -/
theorem blockMultipleExact : Obligations.BlockMultipleExact := by
  unfold Obligations.BlockMultipleExact
  exact gen_stream_mul

/-- After whole blocks the second request goes on where the first ended (R109). -/
theorem gen_add_of_mul (E : Cipher) (k v dt : Bits128) (m n : Nat) :
    gen E k v dt (16 * m + n) =
      ⟨(gen E k v dt (16 * m)).stream ++
          (gen E k (gen E k v dt (16 * m)).seed (gen E k v dt (16 * m)).dt n).stream,
        (gen E k (gen E k v dt (16 * m)).seed (gen E k v dt (16 * m)).dt n).seed,
        (gen E k (gen E k v dt (16 * m)).seed (gen E k v dt (16 * m)).dt n).dt⟩ := by
  have hlen : ((nbIter E k v dt m).outs.flatMap bytes16).length = 16 * m := by
    rw [flatMap_bytes16_length, nbIter_outs_length]
  rw [gen_stream_mul]
  simp only [gen, ceilDiv16_add_of_mod_eq_zero (Nat.mul_mod_right 16 m), ceilDiv16_mul, nbIter_add,
    List.flatMap_append]
  rw [← hlen, List.take_length_add_append]

/-- A shorter request from the same state gives the first bytes of a longer one (R109). -/
theorem gen_stream_take {E : Cipher} {k v dt : Bits128} {n n' : Nat} (h : n ≤ n') :
    (gen E k v dt n').stream.take n = (gen E k v dt n).stream := by
  obtain ⟨d, hd⟩ := Nat.exists_eq_add_of_le (ceilDiv16_mono h)
  rw [gen_stream, gen_stream, List.take_take, Nat.min_eq_left h, hd, nbIter_add, List.flatMap_append,
    List.take_append_of_le_length (le_length_blockBytes E k v dt n)]

/-- A request made after `q` blocks takes its bytes from the blocks that follow them (R109). -/
theorem gen_after_blocks (E : Cipher) (k v dt : Bits128) (q n : Nat) :
    gen E k (nbIter E k v dt q).seed (nbIter E k v dt q).dt n =
      ⟨(((nbIter E k v dt (q + ceilDiv16 n)).outs.drop q).flatMap bytes16).take n,
        (nbIter E k v dt (q + ceilDiv16 n)).seed, (nbIter E k v dt (q + ceilDiv16 n)).dt⟩ := by
  have hlen : (nbIter E k v dt q).outs.length = q := nbIter_outs_length E k v dt q
  rw [nbIter_add, List.drop_append_of_le_length hlen.ge, List.drop_of_length_le hlen.le,
    List.nil_append]
  rfl

/-- Settles O51: whole blocks are taken one after the other, and a truncated request still uses up its
last block. -/
theorem sequentialRequests : Obligations.SequentialRequests := by
  unfold Obligations.SequentialRequests
  intro E k v dt n₁ n₂
  refine ⟨fun hmod => ?_, fun _ _ => ?_⟩
  · obtain ⟨m, rfl⟩ := Nat.dvd_of_mod_eq_zero hmod
    exact gen_add_of_mul E k v dt m n₂
  · have hsecond := gen_after_blocks E k v dt (ceilDiv16 n₁) n₂
    exact ⟨(gen_stream_take (Nat.le_add_right n₁ n₂)).symm, congrArg Generated.stream hsecond,
      congrArg Generated.seed hsecond, congrArg Generated.dt hsecond⟩

/-- Settles O52: twenty bytes are a whole block and four bytes of the next. -/
theorem twentyBytes : Obligations.TwentyBytes := by
  unfold Obligations.TwentyBytes
  intro E k v dt
  have hsplit := congrArg Generated.stream (gen_add_of_mul E k v dt 1 4)
  rw [gen_stream_mul] at hsplit
  simpa [gen, ceilDiv16, nbIter] using hsplit

end Sys2Proof.Machine

/-! ### The beats of a stream and the bytes they carry (O33) -/

namespace Sys2Proof.Machine

open Sys2Proof

theorem keep_congr {r r' : Bits128} {n : Nat} (h : ∀ i < n, byteOf r i = byteOf r' i) :
    keep r n = keep r' n := by
  refine eq_of_byteOf_eq fun i hi => ?_
  rw [byteOf_keep r n hi, byteOf_keep r' n hi]
  split
  · next hn => exact h i hn
  · rfl

/-- Settles O33: a beat holds of its block what `keep` leaves. -/
theorem droppedBytesNotVisible : Obligations.DroppedBytesNotVisible := by
  unfold Obligations.DroppedBytesNotVisible
  intro s r r' h
  rw [State.nextBeat, State.nextBeat, keep_congr h]

/-- The lanes that `keep` leaves are the leading bytes of the word (R45, R106). -/
theorem take_bytes16_keep (r : Bits128) (n : Nat) :
    (bytes16 (keep r n)).take n = (bytes16 r).take n := by
  rw [bytes16, bytes16, ← List.map_take, ← List.map_take, List.take_range]
  refine List.map_congr_left fun i hi => ?_
  obtain ⟨hn, hi⟩ := Nat.lt_min.1 (List.mem_range.1 hi)
  rw [byteOf_keep r n hi, if_pos hn]

/-- Five bits hold the number of kept bytes. -/
theorem toNat_ofNat_min_sixteen (n : Nat) : (BitVec.ofNat 5 (min 16 n)).toNat = min 16 n := by
  rw [BitVec.toNat_ofNat, Nat.mod_eq_of_lt (by omega)]

/-- Each beat carries the bytes of its block that are still owed, so the beats deliver the first `n`
bytes of the blocks (R105, R107). -/
theorem beatsOf_flatMap_bytes (rs : List Bits128) (n : Nat) :
    (beatsOf rs n).flatMap Beat.bytes = (rs.flatMap bytes16).take n := by
  induction rs generalizing n with
  | nil => simp [beatsOf]
  | cons r rs ih =>
    have hbeat : (bytes16 r).take (min 16 n) = (bytes16 r).take n := by
      rw [List.take_eq_take_min (i := n), bytes16_length, Nat.min_comm]
    rw [beatsOf, List.flatMap_cons, List.flatMap_cons, ih, Beat.bytes, toNat_ofNat_min_sixteen,
      take_bytes16_keep, hbeat, List.take_append, bytes16_length]

@[simp] theorem beatsOf_length (rs : List Bits128) (n : Nat) : (beatsOf rs n).length = rs.length := by
  induction rs generalizing n with
  | nil => rfl
  | cons r rs ih => simp [beatsOf, ih]

/-- The `j`-th beat of `n` bytes carries what the first `16 j` bytes leave, at most sixteen, and is the
last when it carries all of it. -/
theorem beatsOf_getElem? {rs : List Bits128} {n j : Nat} {b : Beat} (h : (beatsOf rs n)[j]? = some b) :
    b.nbytes.toNat = min 16 (n - 16 * j) ∧ b.last = decide (n - 16 * j ≤ 16) := by
  induction rs generalizing n j with
  | nil => simp [beatsOf] at h
  | cons r rs ih =>
    cases j with
    | zero =>
      obtain rfl : _ = b := by simpa [beatsOf] using h
      exact ⟨toNat_ofNat_min_sixteen n, rfl⟩
    | succ j =>
      have howed : n - 16 - 16 * j = n - 16 * (j + 1) := by omega
      rw [← howed]
      exact ih (by simpa [beatsOf] using h)

end Sys2Proof.Machine

/-! ### The steps of a stream (O11, O19, O20) -/

namespace Sys2Proof.Machine

open Sys2Proof

theorem exec_generate_of_pos {s : State} {n : Nat} (hl : s.loaded = true) (hn : 0 < n) :
    exec (.generate n) s = .next (s.startStream n) := by
  simp [exec, execGenerate, hl, Nat.pos_iff_ne_zero.1 hn]

theorem exec_generate_zero {s : State} (hl : s.loaded = true) :
    exec (.generate 0) s = .next (s.respond .ok) := by
  simp [exec, execGenerate, hl]

theorem exec_generate_of_not_loaded {s : State} (hl : s.loaded = false) (n : Nat) :
    exec (.generate n) s = .next (s.reject .notLoaded) := by
  simp [exec, execGenerate, hl]

/-- Settles O11: a stream is BUSY, and the other two cases respond (R100, R112). -/
theorem generateAtAcceptance : Obligations.GenerateAtAcceptance := by
  unfold Obligations.GenerateAtAcceptance
  intro n s
  refine ⟨fun hl hn => ⟨_, exec_generate_of_pos hl hn, rfl, ?busy⟩, ?zero,
    fun hl => exec_generate_of_not_loaded hl n⟩
  case busy => exact (State.status_getLsbD _ 0).trans ((State.busy_iff _).2 (.inl rfl))
  case zero =>
    rintro hl rfl
    exact exec_generate_zero hl

/-- The block step of a stream whose cipher has answered (R102). -/
theorem stepWith_of_answer {E : Cipher} {s : State} {k v : Bits128} (hund : s.Undisturbed)
    (hans : s.pins.cphAnswer = true) (he : s.blockEnabled = true) (hk : s.k = some k)
    (hv : s.v = some v) :
    stepWith E s =
      .next (((s.advance.setPending s.pins.cmd).commitBlock (nb E k v s.dt)).recordCalls
        (nbCalls E k v s.dt)) := by
  obtain ⟨hrst, hheld⟩ := hund
  have hbusy : s.busy = true := s.busy_iff.2 (.inl (s.blockEnabled_iff.1 he).1)
  rw [stepWith_of_busy hrst hheld hbusy,
    busyStepWith_of_blockEnabled (s := s.advance.setPending s.pins.cmd) he, if_pos hans]
  exact blockStepWith_some E (s.advance.setPending s.pins.cmd) k v hk hv

/-- Settles O19: the block step, field by field. -/
theorem blockStepAdvances : Obligations.BlockStepAdvances := by
  unfold Obligations.BlockStepAdvances
  intro E s k v hund hans hp ho hrem hk hv
  exact stepWith_of_answer hund hans (s.blockEnabled_iff.2 ⟨hp, ho, hrem⟩) hk hv

/-- A step with a beat waiting: the host takes it or the block waits (R104). -/
theorem stepWith_of_outbuf {E : Cipher} {s : State} {b : Beat} (hund : s.Undisturbed)
    (hb : s.busy = true) (ho : s.outbuf = some b) :
    stepWith E s =
      if s.pins.outReady then .next ((s.advance.setPending s.pins.cmd).acceptBeat b)
      else .next (s.advance.setPending s.pins.cmd) := by
  obtain ⟨hrst, hheld⟩ := hund
  rw [stepWith_of_busy hrst hheld hb]
  simp [busyStepWith, ho]

theorem State.acceptBeat_eq (s : State) (b : Beat) :
    s.acceptBeat b =
      { s with
        outbuf := none, beats := s.beats ++ [b]
        phase := if b.last = true then .idle else s.phase
        resp := if b.last = true then some .ok else s.resp } := by
  cases h : b.last <;> simp [State.acceptBeat, State.respond, h]

theorem State.streamBytes_acceptBeat (s : State) (b : Beat) :
    (s.acceptBeat b).streamBytes = s.streamBytes ++ b.bytes := by
  simp [State.streamBytes]

/-- Settles O20: the step that takes the beat, and the one that waits. -/
theorem beatAcceptance : Obligations.BeatAcceptance := by
  unfold Obligations.BeatAcceptance
  intro E s b hund hb ho
  rw [stepWith_of_outbuf hund hb ho]
  refine ⟨fun hwait => ?_, fun htake => ⟨_, if_pos htake, State.acceptBeat_eq _ b,
    State.streamBytes_acceptBeat _ b⟩⟩
  rw [hwait]
  rfl

end Sys2Proof.Machine

/-! ### The steps realise GEN, whatever the delays (O53)

A run that has accepted one command and not yet delivered its response has done that whole command but
for the acceptance of the response (`bare_run_to_response`), by the same settling that makes runs whole
commands. What is left is to read the whole GENERATE as GEN says. -/

namespace Sys2Proof.Machine

open Sys2Proof

/-- `s` after GENERATE `n`, with the response still to be accepted (R101, R116). -/
def State.generated (E : Cipher) (k v : Bits128) (n : Nat) (s : State) : State :=
  { s with
    v := some (gen E k v s.dt n).seed, dt := (gen E k v s.dt n).dt, resp := some .ok
    calls := s.calls ++ iterCalls E k v s.dt (ceilDiv16 n)
    beats := s.beats ++ beatsOf (nbIter E k v s.dt (ceilDiv16 n)).outs n }

theorem State.Accepts.not_busy {s : State} {c : Command} (h : s.Accepts c) : s.busy = false := h.2.2

/-- K and V are held exactly while LOADED is 1 (R39). -/
theorem State.Inv.loaded_iff {s : State} (hinv : s.Inv) :
    s.loaded = true ↔ ∃ k v, s.k = some k ∧ s.v = some v := by
  obtain ⟨-, -, ⟨hk, hv⟩, -⟩ := hinv
  refine ⟨fun hl => ?_, fun ⟨k, v, hk', _⟩ => by rw [← hk, hk', Option.isSome_some]⟩
  obtain ⟨k, hk⟩ := Option.isSome_iff_exists.1 (hk.trans hl)
  obtain ⟨v, hv⟩ := Option.isSome_iff_exists.1 (hv.trans hl)
  exact ⟨k, v, hk, hv⟩

/-- A whole GENERATE of a ready loaded generator is what GEN says, for size 0 too. -/
theorem wholeCommand_generate {E : Cipher} {s : State} {k v : Bits128} (hinv : s.Inv)
    (hb : s.busy = false) (hk : s.k = some k) (hv : s.v = some v) (n : Nat) :
    wholeCommand E (.generate n) s = (s.generated E k v n).acceptResponse .ok := by
  obtain ⟨hp, hrem, -, hr⟩ := hinv.of_not_busy hb
  have hl : s.loaded = true := hinv.loaded_iff.2 ⟨k, v, hk, hv⟩
  rcases Nat.eq_zero_or_pos n with rfl | hn
  · rw [wholeCommand_of_exec (exec_generate_zero hl), State.finish_of_resp (s.respond_resp .ok)]
    simp [State.generated, State.acceptResponse, State.respond, gen, ceilDiv16, nbIter, iterCalls,
      beatsOf, hv]
  · rw [wholeCommand_of_exec (exec_generate_of_pos hl hn),
      State.finish_of_no_resp (s := s.startStream n) hr, State.finishStream_some (s := s.startStream n) hk hv]
    simp [State.generated, State.acceptResponse, State.startStream, gen, hp, hrem, hr]

/-- Two states in which the same responses were accepted and that agree once their own is. -/
theorem State.bare_eq_of_acceptResponse {s t : State} {r r' : Response} (hs : s.resp = some r)
    (ht : t.resp = some r') (hresp : t.responses = s.responses)
    (h : (t.acceptResponse r').bare = (s.acceptResponse r).bare) : t.bare = s.bare := by
  cases s
  cases t
  simp_all [State.bare, State.within, State.acceptResponse]

/-- A run that begins with the acceptance of a command and has accepted no response accepted no other
command, and when its response is there the command is whole but for the response's acceptance. -/
theorem bare_run_to_response {E : Cipher} {m : Nat} {s t : State} {c : Command} {r : Response}
    (hinv : s.Inv) (hacc : s.Accepts c) (hrst : s.NoResetFor m) (h : runWith E m s = .next t)
    (hresp : t.responses = s.responses) (hr : t.resp = some r) :
    (t.acceptResponse r).bare = (wholeCommand E (decode c) s).bare := by
  obtain ⟨-, hcmd, hb⟩ := hacc
  obtain ⟨htinv, hsettle⟩ := State.settle_run hinv hrst h
  obtain ⟨-, -, hout⟩ := htinv.of_resp hr
  rw [State.settle_of_busy hout (State.busy_of_resp hr), State.finish_of_resp hr,
    State.settle_eq_self hinv hb] at hsettle
  have hready : s.bare.ReadyAfter s.responses.length := ⟨hinv, hb, rfl⟩
  have hcount : s.responses.length + 1 = s.responses.length + (acceptedIn E m s).length := by
    rw [← (hready.wholeCommands (acceptedIn E m s)).count, ← hsettle, State.bare_responses,
      State.acceptResponse_responses, hresp, List.length_append, List.length_singleton]
  have honly : acceptedIn E m s = [c] := by
    cases m with
    | zero => simp [acceptedIn] at hcount
    | succ m =>
      obtain ⟨u, hstep, -⟩ := runWith_succ h
      have hnow : s.acceptedNow = some c := by simp [State.acceptedNow, hb, hcmd]
      rw [acceptedIn_succ hstep, hnow] at hcount ⊢
      simpa using hcount
  rw [hsettle, honly]
  exact wholeCommand_within E _ (decode c) s

/-- Once a GENERATE has its response the state is, but for the offer and the environment, the one that
GEN gives. -/
theorem bare_run_generate {E : Cipher} {m n : Nat} {s t : State} {c : Command} {k v : Bits128}
    (hinv : s.Inv) (hacc : s.Accepts c) (hdec : decode c = .generate n) (hk : s.k = some k)
    (hv : s.v = some v) (hrst : s.NoResetFor m) (h : runWith E m s = .next t)
    (hresp : t.responses = s.responses) (hr : t.resp.isSome = true) :
    t.bare = (s.generated E k v n).bare := by
  obtain ⟨r, hr⟩ := Option.isSome_iff_exists.1 hr
  have hwhole := bare_run_to_response hinv hacc hrst h hresp hr
  rw [hdec, wholeCommand_generate hinv hacc.not_busy hk hv] at hwhole
  exact State.bare_eq_of_acceptResponse rfl hr hresp hwhole

theorem State.generated_streamBytes (E : Cipher) (k v : Bits128) (n : Nat) (s : State) :
    (s.generated E k v n).streamBytes = s.streamBytes ++ (gen E k v s.dt n).stream := by
  rw [gen_stream, ← beatsOf_flatMap_bytes]
  exact List.flatMap_append

/-- Three calls for each block (R88). -/
theorem iterCalls_length (E : Cipher) (k v dt : Bits128) (n : Nat) :
    (iterCalls E k v dt n).length = 3 * n := by
  induction n generalizing v dt with
  | zero => rfl
  | succ n ih =>
    rw [iterCalls, List.length_append, ih, Nat.mul_succ, Nat.add_comm]
    rfl

/-- Settles O53: the state at the response, field by field. -/
theorem generateDelivers : Obligations.GenerateDelivers := by
  unfold Obligations.GenerateDelivers
  intro E s t c k v m hinv hacc hdec hk hv hrst hrun hresp hr
  have hbare := bare_run_generate hinv hacc hdec hk hv hrst hrun hresp hr
  obtain ⟨hphase, -⟩ := hinv.of_not_busy hacc.not_busy
  have hloaded : s.loaded = true := hinv.loaded_iff.2 ⟨k, v, hk, hv⟩
  have hdt : t.dt = (gen E k v s.dt c.size).dt := congrArg State.dt hbare
  have hcalls : t.calls = s.calls ++ iterCalls E k v s.dt (ceilDiv16 c.size) :=
    congrArg State.calls hbare
  have hbytes : t.streamBytes = (s.generated E k v c.size).streamBytes :=
    congrArg (fun u => u.beats.flatMap Beat.bytes) hbare
  refine ⟨congrArg State.resp hbare, (congrArg State.phase hbare).trans hphase,
    (congrArg State.k hbare).trans hk, (congrArg State.loaded hbare).trans hloaded,
    hbytes.trans (s.generated_streamBytes E k v c.size), congrArg State.v hbare, hdt, ?_, ?_⟩
  · rw [hdt]
    exact nbIter_dt_toNat E k v s.dt (ceilDiv16 c.size)
  · rw [hcalls, List.length_append, iterCalls_length]

end Sys2Proof.Machine

/-! ### GENERATE completes when host and cipher answer at once (O54)

A block step and the acceptance of its beat are two steps and take sixteen bytes off what is owed, so
the stream ends; what it has then delivered is what `bare_run_generate` says. -/

namespace Sys2Proof.Machine

open Sys2Proof

/-- A state of the invariant that is served at once for `m` steps and finds the pins `rest` after them
(R152). -/
structure State.Served (m : Nat) (rest : List Pins) (s : State) : Prop where
  inv : s.Inv
  env : s.env = List.replicate m Pins.eager ++ rest

theorem State.Served.pins {m : Nat} {rest : List Pins} {s : State} (h : s.Served (m + 1) rest) :
    s.pins = Pins.eager :=
  s.pins_cons _ _ h.env

theorem State.Served.undisturbed {m : Nat} {rest : List Pins} {s : State}
    (h : s.Served (m + 1) rest) : s.Undisturbed := by
  rw [State.Undisturbed, h.pins]
  exact ⟨rfl, s.holds_none⟩

theorem State.Served.after_step {E : Cipher} {m : Nat} {rest : List Pins} {s t : State}
    (h : s.Served (m + 1) rest) (hstep : stepWith E s = .next t) : t.Served m rest := by
  refine ⟨h.inv.after_step hstep, ?_⟩
  rw [stepWith_env hstep, h.env]
  rfl

/-- A block step that is answered at once leaves a beat waiting and sixteen bytes fewer owed (R102). -/
theorem State.Served.blockStep (E : Cipher) {m : Nat} {rest : List Pins} {s : State}
    (h : s.Served (m + 1) rest) (he : s.blockEnabled = true) :
    ∃ u b, stepWith E s = .next u ∧ u.outbuf = some b ∧ u.rem = s.rem - 16 ∧
      u.responses = s.responses := by
  obtain ⟨-, k, v, hk, hv⟩ := h.inv.of_stream (s.blockEnabled_iff.1 he).1
  have hans : s.pins.cphAnswer = true := by rw [h.pins]; rfl
  have hrem : s.rem - s.keptBytes = s.rem - 16 := by simp only [State.keptBytes]; omega
  exact ⟨_, _, stepWith_of_answer h.undisturbed hans he hk hv, rfl, hrem, rfl⟩

/-- A beat that is taken at once ends the stream with OK if nothing is owed past it, and else the next
block step follows (R104). -/
theorem State.Served.takeBeat (E : Cipher) {m : Nat} {rest : List Pins} {s : State} {b : Beat}
    (h : s.Served (m + 1) rest) (ho : s.outbuf = some b) :
    ∃ u, stepWith E s = .next u ∧ u.rem = s.rem ∧ u.responses = s.responses ∧
      (s.rem = 0 → u.resp = some .ok) ∧ (0 < s.rem → u.blockEnabled = true) := by
  obtain ⟨hp, -⟩ := h.inv.of_outbuf ho
  obtain ⟨-, -, -, -, hvalid⟩ := h.inv
  have hlast : b.last = decide (s.rem = 0) := (hvalid b ho).2
  have hstep := stepWith_of_outbuf (E := E) h.undisturbed (s.busy_iff.2 (.inl hp)) ho
  rw [if_pos (by rw [h.pins]; rfl)] at hstep
  refine ⟨_, hstep, by simp, by simp, fun hz => by simp [hlast, hz], fun hpos => ?_⟩
  have hmore : s.rem ≠ 0 := Nat.pos_iff_ne_zero.1 hpos
  exact (State.blockEnabled_iff _).2 (by simp [hlast, hmore, hp, hpos])

/-- A stream of `q` blocks that is served at once has its response after `2 q` steps (R152). -/
theorem State.Served.runWith_stream (E : Cipher) {q : Nat} {rest : List Pins} {s : State}
    (h : s.Served (2 * q) rest) (he : s.blockEnabled = true) (hq : ceilDiv16 s.rem = q) :
    ∃ t, runWith E (2 * q) s = .next t ∧ t.env = rest ∧ t.responses = s.responses ∧
      t.resp.isSome = true := by
  have howes : 0 < s.rem := (s.blockEnabled_iff.1 he).2.2
  induction q generalizing s with
  | zero =>
    simp only [ceilDiv16] at hq
    omega
  | succ q ih =>
    obtain ⟨u, b, hblock, hout, hurem, huresp⟩ := h.blockStep E he
    have hu : u.Served (2 * q + 1) rest := h.after_step hblock
    obtain ⟨w, hbeat, hwrem, hwresp, hend, hmore⟩ := hu.takeBeat E hout
    have hw : w.Served (2 * q) rest := hu.after_step hbeat
    have hrun : runWith E (2 * (q + 1)) s = runWith E (2 * q) w :=
      (runWith_of_next hblock).trans (runWith_of_next hbeat)
    rw [hrun, ← huresp, ← hwresp]
    have hleft : ceilDiv16 w.rem = q := by
      simp only [ceilDiv16] at hq ⊢
      omega
    rcases Nat.eq_zero_or_pos u.rem with hz | hpos
    · obtain rfl : q = 0 := by rw [← hleft, hwrem, hz]; rfl
      exact ⟨w, rfl, hw.env, rfl, by rw [hend hz, Option.isSome_some]⟩
    · exact ih hw (hmore hpos) hleft (hwrem ▸ hpos)

/-- The beats that `ceil(n/16)` blocks make of `n` bytes: sixteen bytes each but for the last (R105). -/
theorem beatsOf_shape {rs : List Bits128} {n j : Nat} {b : Beat} (hlen : rs.length = ceilDiv16 n)
    (h : (beatsOf rs n)[j]? = some b) :
    b.nbytes.toNat = (if j + 1 < ceilDiv16 n then 16 else n - 16 * (ceilDiv16 n - 1)) ∧
      b.last = decide (j + 1 = ceilDiv16 n) := by
  have hceil : ceilDiv16 n = (n + 15) / 16 := rfl
  obtain ⟨hn, hlast⟩ := beatsOf_getElem? h
  obtain ⟨hj, -⟩ := List.getElem?_eq_some_iff.1 h
  rw [beatsOf_length, hlen] at hj
  refine ⟨?_, hlast.trans (decide_eq_decide.2 (by omega))⟩
  rw [hn]
  split <;> omega

/-- A GENERATE that is accepted and then served at once has its response after `2 ceil(n/16)` steps. -/
theorem runWith_generate_served (E : Cipher) {n : Nat} {rest : List Pins} {s : State} {c : Command}
    (hinv : s.Inv) (hacc : s.Accepts c) (hdec : decode c = .generate n) (hl : s.loaded = true)
    (henv : s.env.tail = List.replicate (2 * ceilDiv16 n) Pins.eager ++ rest) :
    ∃ t, runWith E (2 * ceilDiv16 n + 1) s = .next t ∧ t.env = rest ∧ t.responses = s.responses ∧
      t.resp.isSome = true := by
  obtain ⟨-, -, ho, -⟩ := hinv.of_not_busy hacc.not_busy
  have hstep := stepWith_of_accepts (E := E) hacc
  rw [hdec] at hstep
  rcases Nat.eq_zero_or_pos n with rfl | hn
  · rw [exec_generate_zero (s := s.advance.setPending none) hl] at hstep
    exact ⟨_, runWith_of_next hstep, henv, rfl, rfl⟩
  · rw [exec_generate_of_pos (s := s.advance.setPending none) hl hn] at hstep
    rw [runWith_of_next hstep]
    have hserved : ((s.advance.setPending none).startStream n).Served (2 * ceilDiv16 n) rest :=
      ⟨hinv.after_step hstep, henv⟩
    exact hserved.runWith_stream E ((State.blockEnabled_iff _).2 ⟨rfl, ho, hn⟩) rfl

/-- Settles O54: the run reaches the response, and its beats are those of GEN's blocks. -/
theorem generateCompletes : Obligations.GenerateCompletes := by
  unfold Obligations.GenerateCompletes
  intro E s n rest hinv hb hpend hl henv
  have hpins := s.pins_cons _ _ henv
  have hacc : s.Accepts (encode (.generate n)) :=
    ⟨⟨by rw [hpins]; rfl, State.holds_of_not_pending hpend _⟩, by rw [hpins], hb⟩
  have hdec := decode_encode (.generate n)
  have hrst : s.NoResetFor (2 * ceilDiv16 n + 1) := by
    intro p hp
    rw [henv, List.take_succ_cons, List.take_left' (List.length_replicate ..)] at hp
    rcases List.mem_cons.1 hp with rfl | hp
    · rfl
    · rw [List.eq_of_mem_replicate hp]
      rfl
  obtain ⟨k, v, hk, hv⟩ := hinv.loaded_iff.1 hl
  obtain ⟨t, hrun, htenv, hresp, hr⟩ := runWith_generate_served E hinv hacc hdec hl
    (by rw [henv, List.tail_cons])
  have hbare := bare_run_generate hinv hacc hdec hk hv hrst hrun hresp hr
  have hphase : t.phase = .idle := (congrArg State.phase hbare).trans (hinv.of_not_busy hb).1
  have hblocks := nbIter_outs_length E k v s.dt (ceilDiv16 n)
  rw [Nat.add_comm 1]
  exact ⟨t, beatsOf (nbIter E k v s.dt (ceilDiv16 n)).outs n, hrun, congrArg State.resp hbare, hphase,
    htenv, hresp, congrArg State.beats hbare, (beatsOf_length _ n).trans hblocks,
    fun _ _ => beatsOf_shape hblocks⟩

end Sys2Proof.Machine

/-! ### Rejections (O14, O12, O13) -/

namespace Sys2Proof.Machine

open Sys2Proof

/-- A command that ends rejected responds and does nothing else (R123): INIT and LOAD_DT respond OK, and
a started stream leaves RESP empty. -/
theorem exec_rejected {i : Instr} {s t : State} {r : Response} (hready : s.resp = none)
    (h : exec i s = .next t) (hr : t.resp = some r) (hne : r ≠ .ok) :
    t = { s with resp := some r } ∧ (r = .notLoaded → s.loaded = false) := by
  rcases exec_cases i s t h with
    ⟨_, _, -, rfl⟩ | ⟨_, -, rfl⟩ | ⟨_, -, -, -, rfl⟩ | ⟨r', rfl, -, hnl⟩
  · exact absurd (Option.some.inj hr).symm hne
  · exact absurd (Option.some.inj hr).symm hne
  · exact absurd (hready.symm.trans hr) (by simp)
  · obtain rfl := Option.some.inj hr
    exact ⟨rfl, hnl⟩

/-- Settles O14: the frame of a rejected command. -/
theorem rejectionChangesOnlyResp : Obligations.RejectionChangesOnlyResp := by
  unfold Obligations.RejectionChangesOnlyResp
  intro i s t hready h r hr hne
  exact (exec_rejected hready h hr hne).1

/-! #### The reserved opcodes (R122) -/

theorem opcode_decode (c : Command) : (decode c).opcode = c.op := by
  rw [← encode_op, encodeDecodeCanonical c]

theorem le_opcode_reserved67 (bit : BitVec 1) : 0b0101#4 ≤ (Instr.reserved67 bit).opcode := by
  revert bit
  decide

theorem le_opcode_reserved8F (low : BitVec 3) : 0b0101#4 ≤ (Instr.reserved8F low).opcode := by
  revert low
  decide

/-- Every opcode that names no operation is answered ILLEGAL_OP, whatever LOADED is (R122, R125). -/
theorem exec_of_reserved_opcode {i : Instr} (h : i.opcode = 0b0000#4 ∨ 0b0101#4 ≤ i.opcode)
    (s : State) : exec i s = .next { s with resp := some .illegalOp } := by
  cases i with
  | reserved0 => rfl
  | reserved5 => rfl
  | reserved67 bit => rfl
  | reserved8F low => rfl
  | init key seed => simp [Instr.opcode] at h
  | loadDt dt => simp [Instr.opcode] at h
  | nextBlock => simp [Instr.opcode] at h
  | generate n => simp [Instr.opcode] at h

/-- Settles O12: the four reserved commands, and every record that decodes to one. -/
theorem reservedOpcodesReject : Obligations.ReservedOpcodesReject := by
  unfold Obligations.ReservedOpcodesReject
  intro s b l
  refine ⟨exec_of_reserved_opcode (.inl rfl) s, exec_of_reserved_opcode (.inr (by decide)) s,
    exec_of_reserved_opcode (.inr (le_opcode_reserved67 b)) s,
    exec_of_reserved_opcode (.inr (le_opcode_reserved8F l)) s, fun c hop => ?_⟩
  exact exec_of_reserved_opcode (by rw [opcode_decode]; exact hop) s

/-! #### No other rejection (R124) -/

/-- GENERATE starts a stream, or it responds OK or NOT_LOADED (R100, R112, R124). -/
theorem exec_generate_resp_ne_illegalOp {n : Nat} {s t : State} (hready : s.resp = none)
    (h : exec (.generate n) s = .next t) : t.resp ≠ some .illegalOp := by
  cases hl : s.loaded with
  | false =>
    rw [exec_generate_of_not_loaded hl] at h
    cases h
    simp
  | true =>
    rcases Nat.eq_zero_or_pos n with rfl | hn
    · rw [exec_generate_zero hl] at h
      cases h
      simp
    · rw [exec_generate_of_pos hl hn] at h
      cases h
      simp [hready]

/-- Only an opcode that names no operation is answered ILLEGAL_OP. -/
theorem opcode_of_exec_illegalOp {i : Instr} {s t : State} (hready : s.resp = none)
    (h : exec i s = .next t) (hr : t.resp = some .illegalOp) :
    i.opcode = 0b0000#4 ∨ 0b0101#4 ≤ i.opcode := by
  cases i with
  | reserved0 => exact .inl rfl
  | reserved5 => exact .inr (by decide)
  | reserved67 bit => exact .inr (le_opcode_reserved67 bit)
  | reserved8F low => exact .inr (le_opcode_reserved8F low)
  | init key seed => cases h; cases hr
  | loadDt dt => cases h; cases hr
  | nextBlock =>
    rw [exec_nextBlock_eq_generate] at h
    exact absurd hr (exec_generate_resp_ne_illegalOp hready h)
  | generate n => exact absurd hr (exec_generate_resp_ne_illegalOp hready h)

/-- Settles O13: by R123 a rejection is known by its response, and each of the two rejecting responses
says which commands it answers. -/
theorem notLoadedRejects : Obligations.NotLoadedRejects := by
  unfold Obligations.NotLoadedRejects
  intro s
  refine ⟨fun hl => ⟨exec_nextBlock_of_not_loaded hl, exec_generate_of_not_loaded hl⟩,
    fun key seed => ⟨_, exec_init key seed s, rfl⟩, fun d => ⟨_, exec_loadDt d s, rfl⟩, ?_⟩
  intro i t r hready h hr hne
  obtain ⟨rfl, hnl⟩ := exec_rejected hready h hr hne
  cases r with
  | ok => exact absurd rfl hne
  | illegalOp => exact .inr ⟨rfl, opcode_of_exec_illegalOp hready h hr⟩
  | notLoaded => exact .inl ⟨rfl, hnl rfl, (exec_eq_notLoaded_iff (hnl rfl) i).1 h⟩

end Sys2Proof.Machine

/-! ### An idle block that is offered nothing (O58) -/

namespace Sys2Proof.Machine

open Sys2Proof

/-- Settles O58: a host that offers nothing breaks no duty, and there is nothing to accept. -/
theorem idleStepKeepsState : Obligations.IdleStepKeepsState := by
  unfold Obligations.IdleStepKeepsState
  intro E s hrst hb hcmd
  have hheld : s.holds s.pins.cmd = true := by rw [hcmd, State.holds_none]
  rw [stepWith_of_ready hrst hheld hb, hcmd]
  rfl

end Sys2Proof.Machine

/-! ### Reset in any state (O22) -/

namespace Sys2Proof.Machine

open Sys2Proof

/-- Settles O22: the step is RESET, which reads nothing that another pin drives (R141, R142). -/
theorem resetFromAnyState : Obligations.ResetFromAnyState := by
  unfold Obligations.ResetFromAnyState
  intro E s hrst
  have hstatus : s.advance.applyReset.status = 0x00#8 := show State.reset.status = 0x00#8 from rfl
  exact ⟨_, stepWith_of_reset hrst, rfl, rfl, rfl, rfl, rfl, rfl, rfl, rfl, hstatus, rfl, rfl, rfl,
    rfl, rfl⟩

end Sys2Proof.Machine

/-! ### Steps with given pins: a stray cipher answer, and an offer while BUSY = 1 (O27, O18) -/

namespace Sys2Proof.Machine

open Sys2Proof

/-- The step in which the environment drives `p` (R49). -/
theorem stepWith_env_cons (E : Cipher) (s : State) (p : Pins) (ps : List Pins) :
    stepWith E { s with env := p :: ps } =
      if p.rst then .next { s with env := ps }.applyReset
      else if s.holds p.cmd then
        if s.busy then busyStepWith E p ({ s with env := ps }.setPending p.cmd)
        else acceptStep p.cmd ({ s with env := ps }.setPending none)
      else .refused .commandNotHeld := rfl

/-- Nothing but a running block step looks at whether the cipher has answered (R151). -/
theorem busyStepWith_of_not_blockEnabled {s : State} (he : s.blockEnabled = false) (E : Cipher)
    (p : Pins) (answer : Bool) :
    busyStepWith E { p with cphAnswer := answer } s = busyStepWith E p s := by
  cases ho : s.outbuf <;> simp [busyStepWith, ho, he]

/-- Settles O27: the answer reaches a step while BUSY = 1 alone, which does not look at it. -/
theorem strayCipherAnswerIgnored : Obligations.StrayCipherAnswerIgnored := by
  unfold Obligations.StrayCipherAnswerIgnored
  intro E s p ps he
  have hbusy (answer : Bool) := busyStepWith_of_not_blockEnabled
    (s := { s with env := ps }.setPending p.cmd) he E p answer
  rw [stepWith_env_cons, stepWith_env_cons, hbusy true, hbusy false]

theorem State.acceptBeat_setPending (s : State) (b : Beat) (o : Option Command) :
    (s.setPending o).acceptBeat b = (s.acceptBeat b).setPending o := by
  cases h : b.last <;> simp [State.acceptBeat, State.setPending, State.respond, h]

theorem State.acceptResponse_setPending (s : State) (r : Response) (o : Option Command) :
    (s.setPending o).acceptResponse r = (s.acceptResponse r).setPending o := rfl

@[simp] theorem State.setPending_blockEnabled (s : State) (o : Option Command) :
    (s.setPending o).blockEnabled = s.blockEnabled := rfl

theorem blockStepWith_setPending {E : Cipher} {s t : State} (o : Option Command)
    (h : blockStepWith E s = .next t) : blockStepWith E (s.setPending o) = .next (t.setPending o) := by
  obtain ⟨k, v, hk, hv, rfl⟩ := blockStepWith_next E s t h
  exact blockStepWith_some E (s.setPending o) k v hk hv

/-- While BUSY = 1 a step takes the waiting offer along and does not look at it (R146). -/
theorem busyStepWith_setPending {E : Cipher} {p : Pins} {s t : State} (o : Option Command)
    (h : busyStepWith E p s = .next t) :
    busyStepWith E p (s.setPending o) = .next (t.setPending o) := by
  cases ho : s.outbuf with
  | some b =>
    simp only [busyStepWith, State.setPending_outbuf, ho, State.acceptBeat_setPending] at h ⊢
    split at h <;> next htaken => cases h; simp [htaken]
  | none =>
    cases he : s.blockEnabled with
    | true =>
      rw [busyStepWith_of_blockEnabled he] at h
      rw [busyStepWith_of_blockEnabled (s := s.setPending o) he]
      split at h
      · next hans => rw [if_pos hans]; exact blockStepWith_setPending o h
      · next hans => rw [if_neg hans]; cases h; rfl
    | false =>
      simp only [busyStepWith, State.setPending_outbuf, State.setPending_blockEnabled,
        State.setPending_resp, ho, he, State.acceptResponse_setPending, Bool.false_eq_true,
        if_false] at h ⊢
      cases hr : s.resp with
      | none => simp only [hr] at h ⊢; cases h; rfl
      | some r =>
        simp only [hr] at h ⊢
        split at h <;> next htaken => cases h; simp [htaken]

/-- Settles O18: both steps are the same step while BUSY = 1, and it takes the offer along. -/
theorem busyCommandWaits : Obligations.BusyCommandWaits := by
  unfold Obligations.BusyCommandWaits
  intro E s p ps c hb henv hheld t h
  have hquiet := (stepWith_of_busy
    (s := { s with env := { p with cmd := none, rst := false } :: ps, pending := none }) rfl
    (State.holds_none _) hb).symm.trans h
  have hoffer : s.advance.setPending (some c) = { s with env := ps, pending := some c } := by
    simp [State.advance, State.setPending, henv]
  have hpins := s.pins_cons _ _ henv
  rw [stepWith_of_busy (by rw [hpins]) (by rw [hpins]; exact hheld) hb, hpins, hoffer]
  exact busyStepWith_setPending (some c) hquiet

end Sys2Proof.Machine

/-! ### A pending response (O21) and a waiting beat (O25) -/

namespace Sys2Proof.Machine

open Sys2Proof

/-- A step with a response pending: the host takes it or the block waits (R147). -/
theorem stepWith_of_resp {E : Cipher} {s : State} {r : Response} (hund : s.Undisturbed)
    (hinv : s.Inv) (hr : s.resp = some r) :
    stepWith E s =
      if s.pins.rspReady then .next ((s.advance.setPending s.pins.cmd).acceptResponse r)
      else .next (s.advance.setPending s.pins.cmd) := by
  obtain ⟨hrst, hheld⟩ := hund
  obtain ⟨hp, -, ho⟩ := hinv.of_resp hr
  rw [stepWith_of_busy hrst hheld (State.busy_of_resp hr)]
  simp [busyStepWith, State.blockEnabled, hp, ho, hr]

/-- Settles O21: the step that takes the response, after which the block is ready, and the one that
waits. -/
theorem responseAcceptance : Obligations.ResponseAcceptance := by
  unfold Obligations.ResponseAcceptance
  intro E s r hund hinv hr
  have hready : ((s.advance.setPending s.pins.cmd).acceptResponse r).busy = false :=
    State.acceptResponse_not_busy (s := s.advance.setPending s.pins.cmd) (hinv.of_resp hr).1 r
  rw [stepWith_of_resp hund hinv hr]
  refine ⟨fun hwait => ?_, fun htake => ⟨_, if_pos htake, rfl, hready, ?_⟩⟩
  · rw [hwait]
    rfl
  · rw [State.cmdReady, hready]
    rfl

/-- A step that goes on without a reset was not disturbed by the host (R145). -/
theorem State.undisturbed_of_next {E : Cipher} {s t : State} (hrst : s.pins.rst = false)
    (h : stepWith E s = .next t) : s.Undisturbed := by
  rcases stepWith_next E s t h with ⟨hr, -⟩ | ⟨-, hheld, -⟩
  · simp [hrst] at hr
  · exact ⟨hrst, hheld⟩

/-- Settles O25: a step in which the host does not take the beat waits, and so the run does. -/
theorem backpressureHolds : Obligations.BackpressureHolds := by
  unfold Obligations.BackpressureHolds
  intro E m s t b hp ho hrst hwithheld hrun
  refine State.eq_of_bare_eq (runWith_waits (P := fun p => p.rst = false ∧ p.outReady = false)
    ⟨rfl, rfl⟩ ?_ (fun p hmem => ⟨hrst p hmem, hwithheld p hmem⟩) hrun)
  rintro u u' hu ⟨hr, hw⟩ hstep
  have hphase : u.phase = .stream := (congrArg State.phase hu).trans hp
  have hout : u.outbuf = some b := (congrArg State.outbuf hu).trans ho
  rw [stepWith_of_outbuf (State.undisturbed_of_next hr hstep) (u.busy_iff.2 (.inl hphase)) hout,
    hw] at hstep
  cases hstep
  exact u.bare_advance_setPending _

end Sys2Proof.Machine

/-! ### The counter during a stream (O55)

DT less the beats made, accepted or waiting, is the same in every state of a command in progress: a
block step adds one to both, and no other of its transactions changes either. -/

namespace Sys2Proof.Machine

open Sys2Proof

/-! #### The history only grows (R33) -/

/-- The beats and responses that the host has accepted in `s` are the first of those in `t`. -/
structure State.HistoryGrows (s t : State) : Prop where
  beats : s.beats <+: t.beats
  responses : s.responses <+: t.responses

theorem State.HistoryGrows.of_eq {s t : State} (hb : t.beats = s.beats)
    (hr : t.responses = s.responses) : s.HistoryGrows t :=
  ⟨by rw [hb], by rw [hr]⟩

theorem exec_beats {i : Instr} {s t : State} (h : exec i s = .next t) : t.beats = s.beats := by
  rcases exec_cases i s t h with ⟨_, _, -, rfl⟩ | ⟨_, -, rfl⟩ | ⟨_, -, -, -, rfl⟩ | ⟨_, rfl, -⟩ <;> rfl

theorem State.HistoryGrows.of_exec {i : Instr} {s t : State} (h : exec i s = .next t) :
    s.HistoryGrows t :=
  .of_eq (exec_beats h) (exec_responses h)

theorem State.HistoryGrows.of_busyStep {E : Cipher} {p : Pins} {s t : State}
    (h : busyStepWith E p s = .next t) : s.HistoryGrows t := by
  rcases busyStepWith_next E p s t h with ⟨b, -, -, rfl⟩ | ⟨-, -, hstep⟩ | ⟨r, -, -, -, -, rfl⟩ | rfl
  · exact ⟨by simp, by simp⟩
  · obtain ⟨k, v, -, -, rfl⟩ := blockStepWith_next E s t hstep
    exact .of_eq rfl rfl
  · exact ⟨by simp, by simp⟩
  · exact .of_eq rfl rfl

theorem State.HistoryGrows.of_stepWith {E : Cipher} {s t : State} (h : stepWith E s = .next t) :
    s.HistoryGrows t := by
  rcases stepWith_next E s t h with
    ⟨-, rfl⟩ | ⟨-, -, ⟨c, -, -, hexec⟩ | ⟨-, -, rfl⟩ | ⟨-, hbusy⟩⟩
  · exact .of_eq rfl rfl
  · obtain ⟨hb, hr⟩ := HistoryGrows.of_exec hexec
    exact ⟨hb, hr⟩
  · exact .of_eq rfl rfl
  · obtain ⟨hb, hr⟩ := HistoryGrows.of_busyStep hbusy
    exact ⟨hb, hr⟩

theorem State.HistoryGrows.of_runWith {E : Cipher} {m : Nat} {s t : State}
    (h : runWith E m s = .next t) : s.HistoryGrows t := by
  induction m generalizing s with
  | zero => cases h; exact .of_eq rfl rfl
  | succ m ih =>
    obtain ⟨u, hstep, hrun⟩ := runWith_succ h
    obtain ⟨hb, hr⟩ := HistoryGrows.of_stepWith hstep
    obtain ⟨hb', hr'⟩ := ih hrun
    exact ⟨hb.trans hb', hr.trans hr'⟩

/-! #### DT less the beats made -/

/-- The beats made so far: those the host has accepted, and the one that waits, if any. -/
def State.beatsMade (s : State) : Nat := s.beats.length + if s.outbuf.isSome = true then 1 else 0

/-- DT less the beats made, modulo 2^128. -/
def State.counterBase (s : State) : Bits128 := s.dt - BitVec.ofNat 128 s.beatsMade

/-- A beat that the host takes is counted as before: it waited. -/
theorem State.counterBase_acceptBeat {s : State} {b : Beat} (ho : s.outbuf = some b) :
    (s.acceptBeat b).counterBase = s.counterBase := by
  simp [State.counterBase, State.beatsMade, ho]

/-- A block step makes one beat and adds one to DT (R83, R102). -/
theorem State.counterBase_blockStep {E : Cipher} {s t : State} (he : s.blockEnabled = true)
    (h : blockStepWith E s = .next t) : t.counterBase = s.counterBase := by
  obtain ⟨-, ho, -⟩ := s.blockEnabled_iff.1 he
  obtain ⟨k, v, -, -, rfl⟩ := blockStepWith_next E s t h
  simp [State.counterBase, State.beatsMade, ho, BitVec.ofNat_add]

/-- A transaction of a command in progress ends the command by delivering its response, or the command
goes on with DT less the beats made as it was. -/
theorem busyStepWith_counterBase {E : Cipher} {p : Pins} {s t : State} (hinv : s.Inv)
    (hb : s.busy = true) (h : busyStepWith E p s = .next t) :
    (∃ r, t.responses = s.responses ++ [r]) ∨
      (t.busy = true ∧ t.responses = s.responses ∧ t.counterBase = s.counterBase) := by
  rcases busyStepWith_next E p s t h with ⟨b, ho, -, rfl⟩ | ⟨he, -, hstep⟩ | ⟨r, -, -, -, -, rfl⟩ | rfl
  · exact .inr ⟨State.busy_acceptBeat (hinv.of_outbuf ho).1, s.acceptBeat_responses b,
      State.counterBase_acceptBeat ho⟩
  · have hbase := State.counterBase_blockStep he hstep
    obtain ⟨k, v, -, -, rfl⟩ := blockStepWith_next E s t hstep
    exact .inr ⟨hb, rfl, hbase⟩
  · exact .inl ⟨r, rfl⟩
  · exact .inr ⟨hb, rfl, rfl⟩

/-- A run from a busy state that delivers no response keeps DT less the beats made. -/
theorem runWith_counterBase {E : Cipher} {m : Nat} {s t : State} (hinv : s.Inv) (hb : s.busy = true)
    (hrst : s.NoResetFor m) (h : runWith E m s = .next t) (hresp : t.responses = s.responses) :
    t.counterBase = s.counterBase := by
  induction m generalizing s with
  | zero => cases h; rfl
  | succ m ih =>
    obtain ⟨u, hstep, hrun⟩ := runWith_succ h
    obtain ⟨hnow, hlater⟩ := State.noResetFor_succ hrst
    have hu : u.NoResetFor m := by rwa [State.NoResetFor, stepWith_env hstep]
    have huinv := hinv.after_step hstep
    obtain ⟨-, hheld⟩ := State.undisturbed_of_next hnow hstep
    rw [stepWith_of_busy hnow hheld hb] at hstep
    rcases busyStepWith_counterBase (s := s.advance.setPending s.pins.cmd) hinv hb hstep with
      ⟨r, hdelivered⟩ | ⟨hub, huresp, hubase⟩
    · have hle := (State.HistoryGrows.of_runWith hrun).responses.length_le
      rw [hdelivered, hresp] at hle
      simp at hle
    · exact (ih huinv hub hu hrun (hresp.trans huresp.symm)).trans hubase

/-- A GENERATE that is accepted leaves DT and the beats as they are (R100). -/
theorem exec_generate_counterBase {n : Nat} {s t : State} (h : exec (.generate n) s = .next t) :
    t.counterBase = s.counterBase := by
  rcases exec_cases _ s t h with ⟨_, _, hi, -⟩ | ⟨_, hi, -⟩ | ⟨_, -, -, -, rfl⟩ | ⟨_, rfl, -⟩
  · cases hi
  · cases hi
  · rfl
  · rfl

/-- From a ready state on, DT is what it was then plus the beats accepted since and the one that
waits. -/
theorem State.dt_toNat_of_counterBase_eq {s t : State} (ho : s.outbuf = none)
    (hle : s.beats.length ≤ t.beats.length) (h : t.counterBase = s.counterBase) :
    t.dt.toNat =
      (s.dt.toNat + (t.beats.length - s.beats.length) + if t.outbuf.isSome = true then 1 else 0) %
        2 ^ 128 := by
  have hsmade : s.beatsMade = s.beats.length := by simp [State.beatsMade, ho]
  have hmade : t.beatsMade = s.beats.length +
      (t.beats.length - s.beats.length + if t.outbuf.isSome = true then 1 else 0) := by
    rw [State.beatsMade, ← Nat.add_assoc, Nat.add_sub_of_le hle]
  have hdt : t.dt = s.dt +
      BitVec.ofNat 128 (t.beats.length - s.beats.length + if t.outbuf.isSome = true then 1 else 0) := by
    rw [State.counterBase, State.counterBase, hsmade, hmade, BitVec.ofNat_add,
      sub_eq_iff_eq_add] at h
    rw [h]
    abel
  rw [hdt, BitVec.toNat_add, BitVec.toNat_ofNat, Nat.add_mod_mod, ← Nat.add_assoc]

/-- Settles O55: the acceptance keeps DT less the beats made, and so does every later step up to the
response. -/
theorem counterOutputDuringStream : Obligations.CounterOutputDuringStream := by
  unfold Obligations.CounterOutputDuringStream
  intro E s t c m hinv hacc hdec _ hrst hrun hresp
  have hle := (State.HistoryGrows.of_runWith hrun).beats.length_le
  obtain ⟨u, hstep, hlater⟩ := runWith_succ hrun
  have hu : u.NoResetFor m := by
    rw [State.NoResetFor, stepWith_env hstep]
    exact (State.noResetFor_succ hrst).2
  have huinv := hinv.after_step hstep
  rw [stepWith_of_accepts hacc, hdec] at hstep
  have hubase : u.counterBase = s.counterBase :=
    exec_generate_counterBase (s := s.advance.setPending none) hstep
  have htbase := runWith_counterBase huinv (busy_of_exec hstep).1 hu hlater
    (hresp.trans (exec_responses hstep).symm)
  obtain ⟨-, -, ho, -⟩ := hinv.of_not_busy hacc.not_busy
  exact ⟨hle, State.dt_toNat_of_counterBase_eq ho hle (htbase.trans hubase)⟩

end Sys2Proof.Machine
